-- ==== Sys2Proof/Word.lean ====
section
/-! DEFINITION. The word and byte types of the N1024 (R2: registers are 32 bits wide). -/

namespace Sys2Proof

/-- A 32-bit word: every register (R2), every instruction (R82) and every general register (R79). -/
abbrev Word := BitVec 32

/-- One byte of memory. -/
abbrev Byte := BitVec 8

end Sys2Proof
end

