-- ==== Sys2Proof/Config.lean ====
section
/-! DEFINITION. What one N1024 fixes and the spec does not state, and the free values. Each is an opaque constant with no
body: nothing in Lean can evaluate it, so every statement about it holds whatever it is. The argument called `k` is the
plain counter `State.freeCtr`, which a command advances each time it draws a free value. -/

namespace Sys2Proof.Config

/-- The boot ROM words that belong to the ROM version, by byte address (R395). -/
opaque romWord : Nat → Word

/-- A byte of a bank that has lost its contents and has not been written (R240): by draw and by address. -/
opaque undefByte : Nat → Nat → Byte

/-- What error control makes of a read of such a byte: 0 no error, 1 correctable, others uncorrectable (R240). -/
opaque undefEcc : Nat → Nat → BitVec 2

/-- Whether a failing cell (R244), by byte address and bit, delivers the wrong value when the byte should hold the data given. -/
opaque cellWrong : Nat → Nat → Byte → Bool

/-- One output of the 16-tap polyphase converter at a rate other than 48 kHz (R280 gives its band edges, not its taps). -/
opaque converterOut : Nat → BitVec 24

/-- Whether a RESET_N pulse of between 100 ns and 1 µs resets the part (R386: "the outcome is not defined"). -/
opaque shortResetPulse : Nat → Bool

/-- The pixels of the factory default image's text console (R72 states what it shows, not its glyphs). -/
opaque consolePixel : Nat → Word

/-- How many pixels of a late line a memory-layer fetch has delivered when its line is composed (R139). -/
opaque lateDelivered : Nat → Nat

/-- EADDR after an interrupt's entry (R122 says "as R119", and R119 has no row for an interrupt). -/
opaque interruptEaddr : Nat → Word

/-- A pixel of a Sandpack block that does not decode, as Sirocco takes it (R157 speaks of layers only). -/
opaque badSandpack : Nat → Word

/-- The level of a ball that nothing drives and that has no pull. -/
opaque floatLevel : Nat → Bool

/-- The level of a line at an instant inside a character, a frame, a transfer or a bit clock's period, by draw and by function number
(R345): the model does not step through waveforms. -/
opaque lineLevel : Nat → Nat → Bool

/-- How many instructions a mispredicted transfer squashes (R89 counts them; no rule says how many were fetched). -/
opaque squashed : Nat → Word

/-- Whether a read of one of the sixteen words at ICU offset 0x0200 shows ICU_STACK_i; otherwise it shows ICU_SRC_(64 + i),
which R304 puts at the same offset. -/
opaque stackShown : Nat → Bool

/-- What a register of a core holds that the spec calls lost: after HOLD, before software writes it (R216). -/
opaque lostReg : Nat → Word

/-- What a field of the PCIe header reads as whose value R328 does not give: revision, subsystem IDs, capability pointer, by DWORD. -/
opaque pcieHeader : Nat → Word

/-- A choice among alternatives that the spec allows and does not rank. -/
opaque pick : Nat → Nat

end Sys2Proof.Config
end

