-- ==== Sys2Proof/Machine/Bits.lean ====
section
/-! DEFINITION. Bit-field, sign, byte-order and checksum helpers used throughout the model. -/

namespace Sys2Proof.Machine

/-- Bits [lo + n − 1 : lo] of a word, as a number. -/
def bitsOf (w : Word) (lo n : Nat) : Nat := (w.toNat >>> lo) % 2 ^ n

/-- Bit `i` of a word. -/
def bitOf (w : Word) (i : Nat) : Bool := w.getLsbD i

/-- The word with bits [lo + n − 1 : lo] replaced by the low bits of `v`. -/
def setBits (w : Word) (lo n v : Nat) : Word :=
  let m := BitVec.ofNat 32 ((2 ^ n - 1) <<< lo)
  (w &&& ~~~m) ||| (BitVec.ofNat 32 (v <<< lo) &&& m)

/-- A number as a word. -/
def w32 (n : Nat) : Word := BitVec.ofNat 32 n

/-- Whether bit `i` of a mask held as a number is set. -/
def natBit (m i : Nat) : Bool := m.testBit i

/-- A mask with bit `i` set or cleared. -/
def natSetBit (m i : Nat) (b : Bool) : Nat :=
  if m.testBit i = b then m else if b then m + 2 ^ i else m - 2 ^ i

/-- The signed value of the low `n` bits of a number. -/
def sgn (n v : Nat) : Int :=
  let u := v % 2 ^ n
  if 2 * u < 2 ^ n then (u : Int) else (u : Int) - (2 ^ n : Nat)

/-- A signed value as `n` bits of a number. -/
def unsgn (n : Nat) (v : Int) : Nat := (v % ((2 ^ n : Nat) : Int)).toNat

/-- Clamp a signed value to [lo, hi]. -/
def clampI (lo hi v : Int) : Int := if v < lo then lo else if hi < v then hi else v

/-- Bytes to a number, least significant first (all data are little-endian, R61, R82). -/
def leNat : List Byte → Nat
  | [] => 0
  | b :: bs => b.toNat + 256 * leNat bs

/-- The `n` low bytes of a number, least significant first. -/
def leBytes : Nat → Nat → List Byte
  | 0, _ => []
  | n + 1, v => BitVec.ofNat 8 v :: leBytes n (v / 256)

/-- One bit of a reflected CRC-32 with polynomial `poly` (already reflected). -/
def crcBit (poly c : Word) : Word := if c.getLsbD 0 then (c >>> 1) ^^^ poly else c >>> 1

/-- One byte into a reflected CRC-32. -/
def crcByte (poly c : Word) (b : Byte) : Word :=
  let x := c ^^^ b.setWidth 32
  crcBit poly (crcBit poly (crcBit poly (crcBit poly (crcBit poly (crcBit poly (crcBit poly (crcBit poly x)))))))

/-- The running CRC-32C of R186 (polynomial 0x1EDC_6F41 reflected), before the final exclusive OR. -/
def crc32cRun (c : Word) (bs : List Byte) : Word := bs.foldl (crcByte 0x82F63B78) c

/-- CRC-32C of a byte string (R186). -/
def crc32c (bs : List Byte) : Word := ~~~(crc32cRun 0xFFFFFFFF bs)

/-- CRC-32 of a byte string (R64: polynomial 0x04C1_1DB7, reflected). -/
def crc32 (bs : List Byte) : Word := ~~~(bs.foldl (crcByte 0xEDB88320) 0xFFFFFFFF)

/-- Numbers 0 to n − 1 whose predicate holds, as a mask. -/
def maskOf (n : Nat) (p : Nat → Bool) : Nat :=
  (List.range n).foldl (fun m i => if p i then m + 2 ^ i else m) 0

/-- A saturating counter of `n` bits, one up. -/
def satInc (n v : Nat) : Nat := if v + 1 < 2 ^ n then v + 1 else 2 ^ n - 1

end Sys2Proof.Machine
end

