-- ==== Sys2Proof/Machine/Regs.lean ====
section
/-! DEFINITION. The register map of the N1024, read off the register tables of spec/ (R54, R78, R158, R181, R199, R226,
R246, R259, R274, R275, R295, R304, R318, R319, R320, R338 to R341, R354, R377): the address of every register, its fields,
and one row per register with the access masks of R5 and the reset value. A register name drops its index letters and
takes the indices as arguments: HEAD_h_Ln_MODE is `R.HEAD_L_MODE h l`, its field EN `F.HEAD_L_MODE_EN h l`. -/

namespace Sys2Proof.Machine

/-- A field of a register: the register's address, the field's lowest bit and its width. -/
structure Fld where
  addr  : Nat
  lo    : Nat
  width : Nat
  deriving DecidableEq, Repr

/-- One register of the map: base address, (count, stride) of each index from the largest stride down, the masks of its
RW, W1C and RC bits (R5), and its reset value. WS and WO bits act and are not stored. -/
structure RegRow where
  base  : Nat
  dims  : List (Nat × Nat)
  rw    : Nat
  w1c   : Nat
  rc    : Nat
  reset : Nat
  deriving DecidableEq, Repr

namespace R
def ARRAY_CTRL : Nat := 0x40020000
def ARRAY_STATUS : Nat := 0x40020004
def ARRAY_ERR_INFO : Nat := 0x40020008
def ARRAY_ERR_ADDR : Nat := 0x4002000C
def ARRAY_UNIT_CMD : Nat := 0x40020010
def ARRAY_UNIT_CMD_STATUS : Nat := 0x40020014
def ARRAY_SPARES : Nat := 0x40020018
def ARRAY_FENCE (k : Nat) : Nat := 0x40020040 + 0x4 * k
def ARRAY_PARK (k : Nat) : Nat := 0x400200C0 + 0x4 * k
def ERG_FAULT (n : Nat) : Nat := 0x40020200 + 0x10 * n
def ERG_IMSEL (n : Nat) : Nat := 0x40020204 + 0x10 * n
def ARRAY_MBX_PEND (k : Nat) : Nat := 0x40020400 + 0x4 * k
def ARRAY_ROOT (n : Nat) : Nat := 0x40020500 + 0x4 * n
def ARRAY_DISP (h : Nat) : Nat := 0x40020600 + 0x8 * h
def ARRAY_DISPSTAT (h : Nat) : Nat := 0x40020604 + 0x8 * h
def CFG_STATUS : Nat := 0x40010000
def CFG_IMAGE_ID : Nat := 0x40010004
def CFG_IMAGE_BUILD : Nat := 0x40010008
def CFG_FUSE : Nat := 0x4001000C
def CFG_CTRL : Nat := 0x40010010
def CFG_PROFILE : Nat := 0x40010014
def CFG_PROFILE_STATUS : Nat := 0x40010018
def CFG_BOOT_TIME : Nat := 0x4001001C
def CFG_PROF_INFO (p : Nat) : Nat := 0x40010040 + 0x4 * p
def HEAD_COMP_CTRL (h : Nat) : Nat := 0x40100000 + 0x10000 * h
def HEAD_COMP_STATUS (h : Nat) : Nat := 0x40100004 + 0x10000 * h
def HEAD_COMP_IE (h : Nat) : Nat := 0x40100008 + 0x10000 * h
def HEAD_BG (h : Nat) : Nat := 0x4010000C + 0x10000 * h
def HEAD_FENCE_SIG (h : Nat) : Nat := 0x40100010 + 0x10000 * h
def HEAD_LERR_CNT (h : Nat) : Nat := 0x40100014 + 0x10000 * h
def HEAD_LERR_ADDR (h : Nat) : Nat := 0x40100018 + 0x10000 * h
def HEAD_L_MODE (h l : Nat) : Nat := 0x40100100 + 0x10000 * h + 0x40 * l
def HEAD_L_SRCFMT (h l : Nat) : Nat := 0x40100104 + 0x10000 * h + 0x40 * l
def HEAD_L_POS (h l : Nat) : Nat := 0x40100108 + 0x10000 * h + 0x40 * l
def HEAD_L_SIZE (h l : Nat) : Nat := 0x4010010C + 0x10000 * h + 0x40 * l
def HEAD_L_SRC (h l : Nat) : Nat := 0x40100110 + 0x10000 * h + 0x40 * l
def HEAD_L_ALPHA (h l : Nat) : Nat := 0x40100114 + 0x10000 * h + 0x40 * l
def HEAD_L_KEY (h l : Nat) : Nat := 0x40100118 + 0x10000 * h + 0x40 * l
def HEAD_L_SOLID (h l : Nat) : Nat := 0x4010011C + 0x10000 * h + 0x40 * l
def HEAD_L_BASE (h l : Nat) : Nat := 0x40100120 + 0x10000 * h + 0x40 * l
def HEAD_L_AUX (h l : Nat) : Nat := 0x40100124 + 0x10000 * h + 0x40 * l
def HEAD_L_AUX2 (h l : Nat) : Nat := 0x40100128 + 0x10000 * h + 0x40 * l
def HEAD_L_STRIDE (h l : Nat) : Nat := 0x4010012C + 0x10000 * h + 0x40 * l
def HEAD_L_FLIP (h l : Nat) : Nat := 0x40100130 + 0x10000 * h + 0x40 * l
def HEAD_L_FLIPSTAT (h l : Nat) : Nat := 0x40100134 + 0x10000 * h + 0x40 * l
def HEAD_L_ACT_BASE (h l : Nat) : Nat := 0x40100138 + 0x10000 * h + 0x40 * l
def HEAD_L_PAL (h l i : Nat) : Nat := 0x40104000 + 0x10000 * h + 0x400 * l + 0x4 * i
def HEAD_CTRL (h : Nat) : Nat := 0x40100300 + 0x10000 * h
def HEAD_STATUS (h : Nat) : Nat := 0x40100304 + 0x10000 * h
def HEAD_EVT_STATUS (h : Nat) : Nat := 0x40100308 + 0x10000 * h
def HEAD_EVT_IE (h : Nat) : Nat := 0x4010030C + 0x10000 * h
def HEAD_HTIM_A (h : Nat) : Nat := 0x40100310 + 0x10000 * h
def HEAD_HTIM_B (h : Nat) : Nat := 0x40100314 + 0x10000 * h
def HEAD_VTIM_A (h : Nat) : Nat := 0x40100318 + 0x10000 * h
def HEAD_VTIM_B (h : Nat) : Nat := 0x4010031C + 0x10000 * h
def HEAD_SYNC (h : Nat) : Nat := 0x40100320 + 0x10000 * h
def HEAD_PLL_A (h : Nat) : Nat := 0x40100324 + 0x10000 * h
def HEAD_PLL_B (h : Nat) : Nat := 0x40100328 + 0x10000 * h
def HEAD_PHY_CFG (h : Nat) : Nat := 0x4010032C + 0x10000 * h
def HEAD_BEAMPOS (h : Nat) : Nat := 0x40100330 + 0x10000 * h
def HEAD_FRAME (h : Nat) : Nat := 0x40100334 + 0x10000 * h
def HEAD_LINE_MATCH (h : Nat) : Nat := 0x40100338 + 0x10000 * h
def HEAD_UNDERRUN_CNT (h : Nat) : Nat := 0x4010033C + 0x10000 * h
def HEAD_UNDERRUN_INFO (h : Nat) : Nat := 0x40100340 + 0x10000 * h
def HEAD_ABORT_MAX (h : Nat) : Nat := 0x40100344 + 0x10000 * h
def HEAD_PHY_LAT (h : Nat) : Nat := 0x40100348 + 0x10000 * h
def HEAD_BL_CTRL (h : Nat) : Nat := 0x40100400 + 0x10000 * h
def HEAD_BL_STATUS (h : Nat) : Nat := 0x40100404 + 0x10000 * h
def HEAD_CHK_CTRL (h : Nat) : Nat := 0x40100500 + 0x10000 * h
def HEAD_CHK_STATUS (h : Nat) : Nat := 0x40100504 + 0x10000 * h
def HEAD_CHK_IE (h : Nat) : Nat := 0x40100508 + 0x10000 * h
def HEAD_CHK_WFAIL (h : Nat) : Nat := 0x4010050C + 0x10000 * h
def HEAD_DV_HALF (h : Nat) : Nat := 0x40100510 + 0x10000 * h
def HEAD_CHK_FAILCNT (h : Nat) : Nat := 0x40100514 + 0x10000 * h
def HEAD_CHK_RFGEXIT (h : Nat) : Nat := 0x40100518 + 0x10000 * h
def HEAD_W_RECT_A (h n : Nat) : Nat := 0x40100600 + 0x10000 * h + 0x20 * n
def HEAD_W_RECT_B (h n : Nat) : Nat := 0x40100604 + 0x10000 * h + 0x20 * n
def HEAD_W_CTRL (h n : Nat) : Nat := 0x40100608 + 0x10000 * h + 0x20 * n
def HEAD_W_EXPECT (h n : Nat) : Nat := 0x4010060C + 0x10000 * h + 0x20 * n
def HEAD_W_PADSIG (h n : Nat) : Nat := 0x40100610 + 0x10000 * h + 0x20 * n
def HEAD_W_INTSIG (h n : Nat) : Nat := 0x40100614 + 0x10000 * h + 0x20 * n
def HEAD_W_DIVSIG (h n : Nat) : Nat := 0x40100618 + 0x10000 * h + 0x20 * n
def HEAD_W_RESULT (h n : Nat) : Nat := 0x4010061C + 0x10000 * h + 0x20 * n
def SYS_MODE : Nat := 0x40000000
def SYS_MODE_REQ : Nat := 0x40000004
def SYS_MODE_RESULT : Nat := 0x40000008
def SYS_LEAN_CAUSE : Nat := 0x4000000C
def SYS_REFUGE_CAUSE : Nat := 0x40000010
def SYS_EVT_STATUS : Nat := 0x40000014
def SYS_EVT_IE : Nat := 0x40000018
def SYS_STATUS : Nat := 0x4000001C
def SYS_RESET_CAUSE : Nat := 0x40000020
def SYS_RESET : Nat := 0x40000024
def SYS_HOLD_CTRL : Nat := 0x40000030
def SYS_HOLD_RET : Nat := 0x40000034
def SYS_RESUME_VEC : Nat := 0x40000038
def SYS_RESUME_SP : Nat := 0x4000003C
def SYS_RESUME_TIME : Nat := 0x40000040
def SYS_THERM : Nat := 0x40000050
def SYS_TEMP : Nat := 0x40000054
def SYS_CLK_STATUS : Nat := 0x40000060
def SYS_VSEL : Nat := 0x40000064
def SYS_WAKE_CTRL : Nat := 0x40000070
def SYS_WAKE_TIMER : Nat := 0x40000074
def SYS_WAKE_SRC : Nat := 0x40000078
def PERF_SQUASH : Nat := 0x40000080
def STORE_STATUS : Nat := 0x40030000
def STORE_IE : Nat := 0x40030004
def STORE_ACC_ERR : Nat := 0x40030010
def STORE_ACC_ADDR : Nat := 0x40030014
def STORE_HO_TIMEOUT : Nat := 0x40030018
def STORE_PWR : Nat := 0x40030020
def STORE_PWR_STATUS : Nat := 0x40030024
def STORE_BOOT_FAIL : Nat := 0x40030028
def STORE_OWNER (n : Nat) : Nat := 0x40030040 + 0x4 * n
def STORE_ECC_CNT (c : Nat) : Nat := 0x40030100 + 0x4 * c
def STORE_UE_INFO : Nat := 0x40030140
def STORE_UE_ADDR : Nat := 0x40030144
def STORE_ECC_INJ : Nat := 0x40030148
def SCRUB_CTRL : Nat := 0x40030180
def SCRUB_START : Nat := 0x40030184
def SCRUB_END : Nat := 0x40030188
def SCRUB_STATUS : Nat := 0x4003018C
def SCRUB_READ : Nat := 0x40030190
def SCRUB_ERRS : Nat := 0x40030194
def SCRUB_FIRST : Nat := 0x40030198
def SCRUB_LAST : Nat := 0x4003019C
def STORE_MARCH_CTRL : Nat := 0x400301C0
def STORE_MARCH_STATUS : Nat := 0x400301C4
def STORE_MARCH_ADDR : Nat := 0x400301C8
def BLIT_CTRL : Nat := 0x40050000
def BLIT_STATUS : Nat := 0x40050004
def BLIT_IE : Nat := 0x40050008
def BLIT_LIST : Nat := 0x4005000C
def BLIT_CUR : Nat := 0x40050010
def BLIT_ERR_INFO : Nat := 0x40050014
def BLIT_ERR_ADDR : Nat := 0x40050018
def BLIT_PACE : Nat := 0x4005001C
def BLIT_WROW : Nat := 0x40050020
def BLIT_PAL (i : Nat) : Nat := 0x40050400 + 0x4 * i
def DMA_ACTIVE : Nat := 0x40060000
def DMA_CH_CTRL (n : Nat) : Nat := 0x40060100 + 0x40 * n
def DMA_CH_STATUS (n : Nat) : Nat := 0x40060104 + 0x40 * n
def DMA_CH_SRC (n : Nat) : Nat := 0x40060108 + 0x40 * n
def DMA_CH_DST (n : Nat) : Nat := 0x4006010C + 0x40 * n
def DMA_CH_CNT01 (n : Nat) : Nat := 0x40060110 + 0x40 * n
def DMA_CH_CNT2 (n : Nat) : Nat := 0x40060114 + 0x40 * n
def DMA_CH_SSTEP (n i : Nat) : Nat := 0x40060118 + 0x40 * n + 0x4 * i
def DMA_CH_DSTEP (n i : Nat) : Nat := 0x40060124 + 0x40 * n + 0x4 * i
def DMA_CH_POS01 (n : Nat) : Nat := 0x40060130 + 0x40 * n
def DMA_CH_POS2 (n : Nat) : Nat := 0x40060134 + 0x40 * n
def DMA_CH_ERR_ADDR (n : Nat) : Nat := 0x40060138 + 0x40 * n
def CAM_CTRL (n : Nat) : Nat := 0x40070000 + 0x100 * n
def CAM_STATUS (n : Nat) : Nat := 0x40070004 + 0x100 * n
def CAM_FMT (n : Nat) : Nat := 0x40070008 + 0x100 * n
def CAM_PHY (n : Nat) : Nat := 0x4007000C + 0x100 * n
def CAM_SIZE (n : Nat) : Nat := 0x40070010 + 0x100 * n
def CAM_STRIDE (n : Nat) : Nat := 0x40070014 + 0x100 * n
def CAM_LOCK (n : Nat) : Nat := 0x40070018 + 0x100 * n
def CAM_FRAME (n : Nat) : Nat := 0x4007001C + 0x100 * n
def CAM_DONE_INFO (n : Nat) : Nat := 0x40070020 + 0x100 * n
def CAM_ERRCNT (n : Nat) : Nat := 0x40070024 + 0x100 * n
def CAM_ERR_INFO (n : Nat) : Nat := 0x40070028 + 0x100 * n
def CAM_ERR_ADDR (n : Nat) : Nat := 0x4007002C + 0x100 * n
def CAM_YBASE (n k : Nat) : Nat := 0x40070040 + 0x100 * n + 0x10 * k
def CAM_AUX (n k : Nat) : Nat := 0x40070044 + 0x100 * n + 0x10 * k
def CAM_AUX2 (n k : Nat) : Nat := 0x40070048 + 0x100 * n + 0x10 * k
def AUD_CTRL : Nat := 0x40080000
def AUD_STATUS : Nat := 0x40080004
def AUD_IE : Nat := 0x40080008
def AUD_VEVT : Nat := 0x4008000C
def AUD_TICK : Nat := 0x40080010
def AUD_ERR_ADDR : Nat := 0x40080014
def AUD_P_CFG (p : Nat) : Nat := 0x40080020 + 0x4 * p
def AUD_CH_SEL (c : Nat) : Nat := 0x40080040 + 0x4 * c
def AUD_DUCK_CTRL : Nat := 0x40080100
def AUD_DUCK_THR : Nat := 0x40080104
def AUD_DUCK_GAIN : Nat := 0x40080108
def AUD_DUCK_HOLD : Nat := 0x4008010C
def AUD_B_CTRL (b : Nat) : Nat := 0x40080200 + 0x40 * b
def AUD_B_GAIN (b : Nat) : Nat := 0x40080204 + 0x40 * b
def AUD_B_LIMIT (b : Nat) : Nat := 0x40080208 + 0x40 * b
def AUD_B_COEF (b i : Nat) : Nat := 0x40080210 + 0x40 * b + 0x4 * i
def AUD_V_CTRL (n : Nat) : Nat := 0x40081000 + 0x80 * n
def AUD_V_FREQ (n : Nat) : Nat := 0x40081004 + 0x80 * n
def AUD_V_GAIN (n : Nat) : Nat := 0x40081008 + 0x80 * n
def AUD_V_ADDR (n : Nat) : Nat := 0x4008100C + 0x80 * n
def AUD_V_LEN (n : Nat) : Nat := 0x40081010 + 0x80 * n
def AUD_V_LOOP (n : Nat) : Nat := 0x40081014 + 0x80 * n
def AUD_V_WPTR (n : Nat) : Nat := 0x40081018 + 0x80 * n
def AUD_V_POS (n : Nat) : Nat := 0x4008101C + 0x80 * n
def AUD_V_WT (n i : Nat) : Nat := 0x40081040 + 0x80 * n + 0x4 * i
def ICU_EOI : Nat := 0x40090000
def ICU_RUNPRI : Nat := 0x40090004
def ICU_STATUS : Nat := 0x40090008
def ICU_HIPEND : Nat := 0x4009000C
def ICU_PEND (k : Nat) : Nat := 0x40090040 + 0x4 * k
def ICU_SET (k : Nat) : Nat := 0x40090050 + 0x4 * k
def ICU_EN (k : Nat) : Nat := 0x40090060 + 0x4 * k
def ICU_ACT (k : Nat) : Nat := 0x40090070 + 0x4 * k
def ICU_SRC (n : Nat) : Nat := 0x40090100 + 0x4 * n
def ICU_STACK (i : Nat) : Nat := 0x40090200 + 0x4 * i
def TIM_CTRL (t : Nat) : Nat := 0x400A0000 + 0x100 * t
def TIM_STATUS (t : Nat) : Nat := 0x400A0004 + 0x100 * t
def TIM_IE (t : Nat) : Nat := 0x400A0008 + 0x100 * t
def TIM_PSC (t : Nat) : Nat := 0x400A000C + 0x100 * t
def TIM_TOP (t : Nat) : Nat := 0x400A0010 + 0x100 * t
def TIM_CNT (t : Nat) : Nat := 0x400A0014 + 0x100 * t
def TIM_CAPFLAG (t : Nat) : Nat := 0x400A0018 + 0x100 * t
def TIM_CCFG (t c : Nat) : Nat := 0x400A0040 + 0x100 * t + 0x10 * c
def TIM_CMP (t c : Nat) : Nat := 0x400A0044 + 0x100 * t + 0x10 * c
def TIM_CAPR (t c : Nat) : Nat := 0x400A0048 + 0x100 * t + 0x10 * c
def TIM_CAPF (t c : Nat) : Nat := 0x400A004C + 0x100 * t + 0x10 * c
def WDT_CTRL : Nat := 0x400B0000
def WDT_STATUS : Nat := 0x400B0004
def WDT_WIN : Nat := 0x400B0008
def WDT_WARN : Nat := 0x400B000C
def WDT_TIMEOUT : Nat := 0x400B0010
def WDT_SERVICE : Nat := 0x400B0014
def WDT_COUNT : Nat := 0x400B0018
def ADC_CTRL : Nat := 0x400C0000
def ADC_STATUS : Nat := 0x400C0004
def ADC_IE : Nat := 0x400C0008
def ADC_START : Nat := 0x400C000C
def ADC_SEQ : Nat := 0x400C0010
def ADC_RES (i : Nat) : Nat := 0x400C0020 + 0x4 * i
def PCIE_CTRL : Nat := 0x400D0000
def PCIE_STATUS : Nat := 0x400D0004
def PCIE_IE : Nat := 0x400D0008
def PCIE_ID : Nat := 0x400D000C
def PCIE_H2D : Nat := 0x400D0010
def PCIE_D2H : Nat := 0x400D0014
def PCIE_MSIX_SEND : Nat := 0x400D0018
def PCIE_ERR_ADDR : Nat := 0x400D001C
def PCIE_VSRC (v : Nat) : Nat := 0x400D0100 + 0x4 * v
def ETH_CTRL (n : Nat) : Nat := 0x400E0000 + 0x10000 * n
def ETH_STATUS (n : Nat) : Nat := 0x400E0004 + 0x10000 * n
def ETH_IE (n : Nat) : Nat := 0x400E0008 + 0x10000 * n
def ETH_TXPOLL (n : Nat) : Nat := 0x400E000C + 0x10000 * n
def ETH_MAC_LO (n : Nat) : Nat := 0x400E0010 + 0x10000 * n
def ETH_MAC_HI (n : Nat) : Nat := 0x400E0014 + 0x10000 * n
def ETH_HASH_LO (n : Nat) : Nat := 0x400E0018 + 0x10000 * n
def ETH_HASH_HI (n : Nat) : Nat := 0x400E001C + 0x10000 * n
def ETH_VID (n k : Nat) : Nat := 0x400E0020 + 0x10000 * n + 0x4 * k
def ETH_ETYPE (n k : Nat) : Nat := 0x400E0030 + 0x10000 * n + 0x4 * k
def ETH_TXBASE (n : Nat) : Nat := 0x400E0040 + 0x10000 * n
def ETH_TXLEN (n : Nat) : Nat := 0x400E0044 + 0x10000 * n
def ETH_TXHEAD (n : Nat) : Nat := 0x400E0048 + 0x10000 * n
def ETH_RXBASE (n : Nat) : Nat := 0x400E0050 + 0x10000 * n
def ETH_RXLEN (n : Nat) : Nat := 0x400E0054 + 0x10000 * n
def ETH_RXHEAD (n : Nat) : Nat := 0x400E0058 + 0x10000 * n
def ETH_MDIO (n : Nat) : Nat := 0x400E0060 + 0x10000 * n
def ETH_CNT_DROP (n : Nat) : Nat := 0x400E0070 + 0x10000 * n
def ETH_CNT_ERR (n : Nat) : Nat := 0x400E0074 + 0x10000 * n
def ETH_0_PTP_INC : Nat := 0x400E0100
def ETH_0_PTP_NS : Nat := 0x400E0104
def ETH_0_PTP_SEC_LO : Nat := 0x400E0108
def ETH_0_PTP_SEC_HI : Nat := 0x400E010C
def ETH_0_PTP_ADJ : Nat := 0x400E0110
def UART_CTRL (n : Nat) : Nat := 0x40160000 + 0x100 * n
def UART_STATUS (n : Nat) : Nat := 0x40160004 + 0x100 * n
def UART_IE (n : Nat) : Nat := 0x40160008 + 0x100 * n
def UART_DATA (n : Nat) : Nat := 0x4016000C + 0x100 * n
def UART_BAUD (n : Nat) : Nat := 0x40160010 + 0x100 * n
def UART_IDLE (n : Nat) : Nat := 0x40160014 + 0x100 * n
def SPI_CTRL (n : Nat) : Nat := 0x40161000 + 0x100 * n
def SPI_STATUS (n : Nat) : Nat := 0x40161004 + 0x100 * n
def SPI_IE (n : Nat) : Nat := 0x40161008 + 0x100 * n
def SPI_DATA (n : Nat) : Nat := 0x4016100C + 0x100 * n
def SPI_CLK (n : Nat) : Nat := 0x40161010 + 0x100 * n
def I2C_CTRL (n : Nat) : Nat := 0x40162000 + 0x100 * n
def I2C_STATUS (n : Nat) : Nat := 0x40162004 + 0x100 * n
def I2C_IE (n : Nat) : Nat := 0x40162008 + 0x100 * n
def I2C_CMD (n : Nat) : Nat := 0x4016200C + 0x100 * n
def I2C_DATA (n : Nat) : Nat := 0x40162010 + 0x100 * n
def I2C_TOUT (n : Nat) : Nat := 0x40162014 + 0x100 * n
def QSPI_CMD : Nat := 0x40163000
def QSPI_ADDR : Nat := 0x40163004
def QSPI_STATUS : Nat := 0x40163008
def QSPI_BUF (i : Nat) : Nat := 0x40163100 + 0x4 * i
def PRG_CTRL : Nat := 0x40140000
def PRG_STATUS : Nat := 0x40140004
def PRG_IE : Nat := 0x40140008
def PRG_APP : Nat := 0x4014000C
def PRG_TIMEOUT : Nat := 0x40140010
def PRG_LOSTSEL : Nat := 0x40140014
def PRG_TXSEQ : Nat := 0x40140018
def PRG_CH_RXSEQ (c : Nat) : Nat := 0x40140020 + 0x40 * c
def PRG_CH_ERRCNT (c : Nat) : Nat := 0x40140024 + 0x40 * c
def PRG_CH_RX (c i : Nat) : Nat := 0x40140030 + 0x40 * c + 0x4 * i
def PIN_P_IN (k : Nat) : Nat := 0x40150000 + 0x20 * k
def PIN_P_OUT (k : Nat) : Nat := 0x40150004 + 0x20 * k
def PIN_P_SET (k : Nat) : Nat := 0x40150008 + 0x20 * k
def PIN_P_CLR (k : Nat) : Nat := 0x4015000C + 0x20 * k
def PIN_P_TGL (k : Nat) : Nat := 0x40150010 + 0x20 * k
def PIN_P_OE (k : Nat) : Nat := 0x40150014 + 0x20 * k
def PIN_EVT_STATUS : Nat := 0x40150100
def PIN_EVT_IE : Nat := 0x40150104
def PIN_BANK_STATUS : Nat := 0x40150108
def PIN_EVT (n : Nat) : Nat := 0x40150110 + 0x4 * n
def PIN_SEL (f : Nat) : Nat := 0x40150400 + 0x4 * f
def PIN_CFG (p : Nat) : Nat := 0x40151000 + 0x4 * p
def DBG_CTRL : Nat := 0x40170000
def DBG_STATUS : Nat := 0x40170004
def DBG_CMD : Nat := 0x40170008
def DBG_CMD_STATUS : Nat := 0x4017000C
def DBG_REG_IDX : Nat := 0x40170010
def DBG_REG_DATA : Nat := 0x40170014
def DBG_MEM_CTRL : Nat := 0x40170018
def DBG_MEM_ADDR : Nat := 0x4017001C
def DBG_MEM_DATA : Nat := 0x40170020
def DBG_FREEZE : Nat := 0x40170024
def DBG_CHAN_D2C : Nat := 0x40170028
def DBG_CHAN_C2D : Nat := 0x4017002C
def DBG_CHAN_STATUS : Nat := 0x40170030
def DBG_HALT (k : Nat) : Nat := 0x40170040 + 0x4 * k
def DBG_PATCH_ADDR (i : Nat) : Nat := 0x40170100 + 0x8 * i
def DBG_PATCH_DATA (i : Nat) : Nat := 0x40170104 + 0x8 * i
def DBG_CMP_LO (k : Nat) : Nat := 0x40170180 + 0x10 * k
def DBG_CMP_HI (k : Nat) : Nat := 0x40170184 + 0x10 * k
def DBG_CMP_VAL (k : Nat) : Nat := 0x40170188 + 0x10 * k
def DBG_CMP_CTRL (k : Nat) : Nat := 0x4017018C + 0x10 * k
def DBG_FUSE_DATA (i : Nat) : Nat := 0x40170200 + 0x4 * i
def DBG_FUSE_CTRL : Nat := 0x40170220
def DBG_FUSE_STATUS : Nat := 0x40170224
end R

namespace F
def ARRAY_CTRL_FAULTIE : Fld := ⟨R.ARRAY_CTRL, 1, 1⟩
def ARRAY_CTRL_MBXIE : Fld := ⟨R.ARRAY_CTRL, 0, 1⟩
def ARRAY_STATUS_AWAKE : Fld := ⟨R.ARRAY_STATUS, 10, 11⟩
def ARRAY_STATUS_QFULL : Fld := ⟨R.ARRAY_STATUS, 1, 1⟩
def ARRAY_STATUS_CLIP : Fld := ⟨R.ARRAY_STATUS, 0, 1⟩
def ARRAY_ERR_INFO_VALID : Fld := ⟨R.ARRAY_ERR_INFO, 31, 1⟩
def ARRAY_ERR_INFO_OVF : Fld := ⟨R.ARRAY_ERR_INFO, 30, 1⟩
def ARRAY_ERR_INFO_REQ : Fld := ⟨R.ARRAY_ERR_INFO, 16, 4⟩
def ARRAY_ERR_INFO_KIND : Fld := ⟨R.ARRAY_ERR_INFO, 12, 4⟩
def ARRAY_ERR_INFO_ENGINE : Fld := ⟨R.ARRAY_ERR_INFO, 0, 10⟩
def ARRAY_UNIT_CMD_CMD : Fld := ⟨R.ARRAY_UNIT_CMD, 28, 4⟩
def ARRAY_UNIT_CMD_UNIT : Fld := ⟨R.ARRAY_UNIT_CMD, 0, 12⟩
def ARRAY_UNIT_CMD_STATUS_BUSY : Fld := ⟨R.ARRAY_UNIT_CMD_STATUS, 31, 1⟩
def ARRAY_UNIT_CMD_STATUS_RESULT : Fld := ⟨R.ARRAY_UNIT_CMD_STATUS, 0, 4⟩
def ARRAY_SPARES_DECLARED : Fld := ⟨R.ARRAY_SPARES, 24, 8⟩
def ARRAY_SPARES_USED : Fld := ⟨R.ARRAY_SPARES, 16, 8⟩
def ARRAY_SPARES_FENCED : Fld := ⟨R.ARRAY_SPARES, 8, 8⟩
def ARRAY_SPARES_LEANVAR : Fld := ⟨R.ARRAY_SPARES, 0, 1⟩
def ARRAY_FENCE_BITS (k : Nat) : Fld := ⟨(R.ARRAY_FENCE k), 0, 32⟩
def ARRAY_PARK_BITS (k : Nat) : Fld := ⟨(R.ARRAY_PARK k), 0, 32⟩
def ERG_FAULT_RIDGE (n : Nat) : Fld := ⟨(R.ERG_FAULT n), 0, 8⟩
def ERG_IMSEL_ACTHALF (n : Nat) : Fld := ⟨(R.ERG_IMSEL n), 16, 1⟩
def ERG_IMSEL_ENGINE (n : Nat) : Fld := ⟨(R.ERG_IMSEL n), 0, 6⟩
def ARRAY_MBX_PEND_BITS (k : Nat) : Fld := ⟨(R.ARRAY_MBX_PEND k), 0, 32⟩
def ARRAY_ROOT_VALID (n : Nat) : Fld := ⟨(R.ARRAY_ROOT n), 31, 1⟩
def ARRAY_ROOT_ACTION (n : Nat) : Fld := ⟨(R.ARRAY_ROOT n), 24, 2⟩
def ARRAY_ROOT_LAYER (n : Nat) : Fld := ⟨(R.ARRAY_ROOT n), 16, 3⟩
def ARRAY_ROOT_UNIT (n : Nat) : Fld := ⟨(R.ARRAY_ROOT n), 0, 12⟩
def ARRAY_DISP_LEAD (h : Nat) : Fld := ⟨(R.ARRAY_DISP h), 0, 4⟩
def ARRAY_DISPSTAT_LASTLINE (h : Nat) : Fld := ⟨(R.ARRAY_DISPSTAT h), 16, 12⟩
def ARRAY_DISPSTAT_OUTSTANDING (h : Nat) : Fld := ⟨(R.ARRAY_DISPSTAT h), 8, 4⟩
def ARRAY_DISPSTAT_LEAD (h : Nat) : Fld := ⟨(R.ARRAY_DISPSTAT h), 0, 4⟩
def CFG_STATUS_DFLT : Fld := ⟨R.CFG_STATUS, 31, 1⟩
def CFG_STATUS_AUTH : Fld := ⟨R.CFG_STATUS, 30, 1⟩
def CFG_STATUS_SLOT : Fld := ⟨R.CFG_STATUS, 29, 1⟩
def CFG_STATUS_LOADED : Fld := ⟨R.CFG_STATUS, 28, 1⟩
def CFG_STATUS_BOOTSEL : Fld := ⟨R.CFG_STATUS, 26, 2⟩
def CFG_STATUS_REASON_B : Fld := ⟨R.CFG_STATUS, 20, 4⟩
def CFG_STATUS_REASON_A : Fld := ⟨R.CFG_STATUS, 16, 4⟩
def CFG_STATUS_STAGE : Fld := ⟨R.CFG_STATUS, 12, 4⟩
def CFG_FUSE_KEYV : Fld := ⟨R.CFG_FUSE, 31, 1⟩
def CFG_FUSE_AUTHREQ : Fld := ⟨R.CFG_FUSE, 30, 1⟩
def CFG_FUSE_REPAIRS : Fld := ⟨R.CFG_FUSE, 0, 8⟩
def CFG_CTRL_SWIE : Fld := ⟨R.CFG_CTRL, 0, 1⟩
def CFG_PROFILE_PROFILE : Fld := ⟨R.CFG_PROFILE, 0, 3⟩
def CFG_PROFILE_STATUS_BUSY : Fld := ⟨R.CFG_PROFILE_STATUS, 31, 1⟩
def CFG_PROFILE_STATUS_DONE : Fld := ⟨R.CFG_PROFILE_STATUS, 30, 1⟩
def CFG_PROFILE_STATUS_FAIL : Fld := ⟨R.CFG_PROFILE_STATUS, 29, 1⟩
def CFG_PROFILE_STATUS_HEADSDONE : Fld := ⟨R.CFG_PROFILE_STATUS, 20, 4⟩
def CFG_PROFILE_STATUS_RESULT : Fld := ⟨R.CFG_PROFILE_STATUS, 12, 4⟩
def CFG_PROFILE_STATUS_LEAN : Fld := ⟨R.CFG_PROFILE_STATUS, 11, 1⟩
def CFG_PROFILE_STATUS_ACTIVE : Fld := ⟨R.CFG_PROFILE_STATUS, 8, 3⟩
def CFG_PROF_INFO_VALID (p : Nat) : Fld := ⟨(R.CFG_PROF_INFO p), 31, 1⟩
def CFG_PROF_INFO_LEANV (p : Nat) : Fld := ⟨(R.CFG_PROF_INFO p), 30, 1⟩
def CFG_PROF_INFO_RELOAD_FRAMES (p : Nat) : Fld := ⟨(R.CFG_PROF_INFO p), 16, 4⟩
def CFG_PROF_INFO_LEANHEADS (p : Nat) : Fld := ⟨(R.CFG_PROF_INFO p), 4, 4⟩
def CFG_PROF_INFO_HEADS (p : Nat) : Fld := ⟨(R.CFG_PROF_INFO p), 0, 4⟩
def HEAD_COMP_CTRL_DITHER (h : Nat) : Fld := ⟨(R.HEAD_COMP_CTRL h), 9, 1⟩
def HEAD_COMP_CTRL_DEPTH (h : Nat) : Fld := ⟨(R.HEAD_COMP_CTRL h), 8, 1⟩
def HEAD_COMP_CTRL_NLAYERS (h : Nat) : Fld := ⟨(R.HEAD_COMP_CTRL h), 0, 4⟩
def HEAD_COMP_STATUS_DEPTH6 (h : Nat) : Fld := ⟨(R.HEAD_COMP_STATUS h), 31, 1⟩
def HEAD_COMP_STATUS_RFGERR (h : Nat) : Fld := ⟨(R.HEAD_COMP_STATUS h), 27, 1⟩
def HEAD_COMP_STATUS_NOROOT (h : Nat) : Fld := ⟨(R.HEAD_COMP_STATUS h), 26, 1⟩
def HEAD_COMP_STATUS_REFUSED (h : Nat) : Fld := ⟨(R.HEAD_COMP_STATUS h), 25, 1⟩
def HEAD_COMP_STATUS_FLIPDROP (h : Nat) : Fld := ⟨(R.HEAD_COMP_STATUS h), 24, 1⟩
def HEAD_COMP_STATUS_LERR (h : Nat) : Fld := ⟨(R.HEAD_COMP_STATUS h), 16, 8⟩
def HEAD_COMP_STATUS_FTO (h : Nat) : Fld := ⟨(R.HEAD_COMP_STATUS h), 8, 8⟩
def HEAD_COMP_STATUS_FLIPDONE (h : Nat) : Fld := ⟨(R.HEAD_COMP_STATUS h), 0, 8⟩
def HEAD_COMP_IE_IE (h : Nat) : Fld := ⟨(R.HEAD_COMP_IE h), 0, 28⟩
def HEAD_BG_RGB (h : Nat) : Fld := ⟨(R.HEAD_BG h), 0, 24⟩
def HEAD_FENCE_SIG_SIG (h : Nat) : Fld := ⟨(R.HEAD_FENCE_SIG h), 0, 8⟩
def HEAD_LERR_CNT_REFDEC (h : Nat) : Fld := ⟨(R.HEAD_LERR_CNT h), 16, 16⟩
def HEAD_LERR_CNT_UNCORR (h : Nat) : Fld := ⟨(R.HEAD_LERR_CNT h), 0, 16⟩
def HEAD_L_MODE_EN (h l : Nat) : Fld := ⟨(R.HEAD_L_MODE h l), 31, 1⟩
def HEAD_L_MODE_ALPHAMODE (h l : Nat) : Fld := ⟨(R.HEAD_L_MODE h l), 0, 2⟩
def HEAD_L_SRCFMT_KIND (h l : Nat) : Fld := ⟨(R.HEAD_L_SRCFMT h l), 30, 2⟩
def HEAD_L_SRCFMT_PREMUL (h l : Nat) : Fld := ⟨(R.HEAD_L_SRCFMT h l), 8, 1⟩
def HEAD_L_SRCFMT_CSC (h l : Nat) : Fld := ⟨(R.HEAD_L_SRCFMT h l), 4, 2⟩
def HEAD_L_SRCFMT_FMT (h l : Nat) : Fld := ⟨(R.HEAD_L_SRCFMT h l), 0, 4⟩
def HEAD_L_POS_Y (h l : Nat) : Fld := ⟨(R.HEAD_L_POS h l), 16, 16⟩
def HEAD_L_POS_X (h l : Nat) : Fld := ⟨(R.HEAD_L_POS h l), 0, 16⟩
def HEAD_L_SIZE_H (h l : Nat) : Fld := ⟨(R.HEAD_L_SIZE h l), 16, 16⟩
def HEAD_L_SIZE_W (h l : Nat) : Fld := ⟨(R.HEAD_L_SIZE h l), 0, 16⟩
def HEAD_L_SRC_SY (h l : Nat) : Fld := ⟨(R.HEAD_L_SRC h l), 16, 16⟩
def HEAD_L_SRC_SX (h l : Nat) : Fld := ⟨(R.HEAD_L_SRC h l), 0, 16⟩
def HEAD_L_ALPHA_GA (h l : Nat) : Fld := ⟨(R.HEAD_L_ALPHA h l), 0, 8⟩
def HEAD_L_KEY_RGB (h l : Nat) : Fld := ⟨(R.HEAD_L_KEY h l), 0, 24⟩
def HEAD_L_STRIDE_CSTRIDE (h l : Nat) : Fld := ⟨(R.HEAD_L_STRIDE h l), 16, 16⟩
def HEAD_L_STRIDE_STRIDE (h l : Nat) : Fld := ⟨(R.HEAD_L_STRIDE h l), 0, 16⟩
def HEAD_L_FLIP_TIMEOUT (h l : Nat) : Fld := ⟨(R.HEAD_L_FLIP h l), 28, 4⟩
def HEAD_L_FLIP_SLOT (h l : Nat) : Fld := ⟨(R.HEAD_L_FLIP h l), 16, 10⟩
def HEAD_L_FLIP_SRC (h l : Nat) : Fld := ⟨(R.HEAD_L_FLIP h l), 8, 6⟩
def HEAD_L_FLIP_FENCE (h l : Nat) : Fld := ⟨(R.HEAD_L_FLIP h l), 1, 1⟩
def HEAD_L_FLIP_GO (h l : Nat) : Fld := ⟨(R.HEAD_L_FLIP h l), 0, 1⟩
def HEAD_L_FLIPSTAT_PENDING (h l : Nat) : Fld := ⟨(R.HEAD_L_FLIPSTAT h l), 31, 1⟩
def HEAD_L_FLIPSTAT_SIGNALLED (h l : Nat) : Fld := ⟨(R.HEAD_L_FLIPSTAT h l), 30, 1⟩
def HEAD_L_FLIPSTAT_REFUSED (h l : Nat) : Fld := ⟨(R.HEAD_L_FLIPSTAT h l), 29, 1⟩
def HEAD_L_FLIPSTAT_WAITED (h l : Nat) : Fld := ⟨(R.HEAD_L_FLIPSTAT h l), 20, 4⟩
def HEAD_L_FLIPSTAT_REASON (h l : Nat) : Fld := ⟨(R.HEAD_L_FLIPSTAT h l), 0, 4⟩
def HEAD_CTRL_EN (h : Nat) : Fld := ⟨(R.HEAD_CTRL h), 31, 1⟩
def HEAD_CTRL_CLONE (h : Nat) : Fld := ⟨(R.HEAD_CTRL h), 30, 1⟩
def HEAD_CTRL_CLSRC (h : Nat) : Fld := ⟨(R.HEAD_CTRL h), 28, 2⟩
def HEAD_CTRL_FRZ (h : Nat) : Fld := ⟨(R.HEAD_CTRL h), 24, 1⟩
def HEAD_CTRL_PHY (h : Nat) : Fld := ⟨(R.HEAD_CTRL h), 2, 2⟩
def HEAD_STATUS_RUN (h : Nat) : Fld := ⟨(R.HEAD_STATUS h), 31, 1⟩
def HEAD_STATUS_PLLLOCK (h : Nat) : Fld := ⟨(R.HEAD_STATUS h), 30, 1⟩
def HEAD_STATUS_PHYUP (h : Nat) : Fld := ⟨(R.HEAD_STATUS h), 29, 1⟩
def HEAD_STATUS_STOPPING (h : Nat) : Fld := ⟨(R.HEAD_STATUS h), 28, 1⟩
def HEAD_STATUS_HALFREF (h : Nat) : Fld := ⟨(R.HEAD_STATUS h), 27, 1⟩
def HEAD_STATUS_CFGERR (h : Nat) : Fld := ⟨(R.HEAD_STATUS h), 20, 4⟩
def HEAD_EVT_STATUS_BLWERR (h : Nat) : Fld := ⟨(R.HEAD_EVT_STATUS h), 13, 1⟩
def HEAD_EVT_STATUS_BLSKIP (h : Nat) : Fld := ⟨(R.HEAD_EVT_STATUS h), 12, 1⟩
def HEAD_EVT_STATUS_BLDROP (h : Nat) : Fld := ⟨(R.HEAD_EVT_STATUS h), 11, 1⟩
def HEAD_EVT_STATUS_BLEVT (h : Nat) : Fld := ⟨(R.HEAD_EVT_STATUS h), 10, 1⟩
def HEAD_EVT_STATUS_BLREF (h : Nat) : Fld := ⟨(R.HEAD_EVT_STATUS h), 9, 1⟩
def HEAD_EVT_STATUS_BLARM (h : Nat) : Fld := ⟨(R.HEAD_EVT_STATUS h), 8, 1⟩
def HEAD_EVT_STATUS_CLONELOST (h : Nat) : Fld := ⟨(R.HEAD_EVT_STATUS h), 7, 1⟩
def HEAD_EVT_STATUS_PHYERR (h : Nat) : Fld := ⟨(R.HEAD_EVT_STATUS h), 6, 1⟩
def HEAD_EVT_STATUS_LOCKLOST (h : Nat) : Fld := ⟨(R.HEAD_EVT_STATUS h), 5, 1⟩
def HEAD_EVT_STATUS_ABORTTRIP (h : Nat) : Fld := ⟨(R.HEAD_EVT_STATUS h), 4, 1⟩
def HEAD_EVT_STATUS_ABORT (h : Nat) : Fld := ⟨(R.HEAD_EVT_STATUS h), 3, 1⟩
def HEAD_EVT_STATUS_LINE (h : Nat) : Fld := ⟨(R.HEAD_EVT_STATUS h), 2, 1⟩
def HEAD_EVT_STATUS_ACT (h : Nat) : Fld := ⟨(R.HEAD_EVT_STATUS h), 1, 1⟩
def HEAD_EVT_STATUS_VBL (h : Nat) : Fld := ⟨(R.HEAD_EVT_STATUS h), 0, 1⟩
def HEAD_EVT_IE_IE (h : Nat) : Fld := ⟨(R.HEAD_EVT_IE h), 0, 14⟩
def HEAD_HTIM_A_HACTIVE (h : Nat) : Fld := ⟨(R.HEAD_HTIM_A h), 16, 12⟩
def HEAD_HTIM_A_HFP (h : Nat) : Fld := ⟨(R.HEAD_HTIM_A h), 0, 12⟩
def HEAD_HTIM_B_HSYNC (h : Nat) : Fld := ⟨(R.HEAD_HTIM_B h), 16, 12⟩
def HEAD_HTIM_B_HBP (h : Nat) : Fld := ⟨(R.HEAD_HTIM_B h), 0, 12⟩
def HEAD_VTIM_A_VACTIVE (h : Nat) : Fld := ⟨(R.HEAD_VTIM_A h), 16, 12⟩
def HEAD_VTIM_A_VFP (h : Nat) : Fld := ⟨(R.HEAD_VTIM_A h), 0, 12⟩
def HEAD_VTIM_B_VSYNC (h : Nat) : Fld := ⟨(R.HEAD_VTIM_B h), 16, 12⟩
def HEAD_VTIM_B_VBP (h : Nat) : Fld := ⟨(R.HEAD_VTIM_B h), 0, 12⟩
def HEAD_SYNC_DEPOL (h : Nat) : Fld := ⟨(R.HEAD_SYNC h), 2, 1⟩
def HEAD_SYNC_VPOL (h : Nat) : Fld := ⟨(R.HEAD_SYNC h), 1, 1⟩
def HEAD_SYNC_HPOL (h : Nat) : Fld := ⟨(R.HEAD_SYNC h), 0, 1⟩
def HEAD_PLL_A_NDIV (h : Nat) : Fld := ⟨(R.HEAD_PLL_A h), 16, 7⟩
def HEAD_PLL_A_FRAC (h : Nat) : Fld := ⟨(R.HEAD_PLL_A h), 0, 16⟩
def HEAD_PLL_B_PDIV (h : Nat) : Fld := ⟨(R.HEAD_PLL_B h), 0, 7⟩
def HEAD_PHY_CFG_ERATE (h : Nat) : Fld := ⟨(R.HEAD_PHY_CFG h), 16, 2⟩
def HEAD_PHY_CFG_ELANES (h : Nat) : Fld := ⟨(R.HEAD_PHY_CFG h), 12, 2⟩
def HEAD_PHY_CFG_ASSR (h : Nat) : Fld := ⟨(R.HEAD_PHY_CFG h), 8, 1⟩
def HEAD_PHY_CFG_LSWAP (h : Nat) : Fld := ⟨(R.HEAD_PHY_CFG h), 4, 1⟩
def HEAD_PHY_CFG_LMAP (h : Nat) : Fld := ⟨(R.HEAD_PHY_CFG h), 1, 1⟩
def HEAD_PHY_CFG_L18 (h : Nat) : Fld := ⟨(R.HEAD_PHY_CFG h), 0, 1⟩
def HEAD_BEAMPOS_LINE (h : Nat) : Fld := ⟨(R.HEAD_BEAMPOS h), 16, 16⟩
def HEAD_BEAMPOS_HPOS (h : Nat) : Fld := ⟨(R.HEAD_BEAMPOS h), 0, 16⟩
def HEAD_LINE_MATCH_EN (h : Nat) : Fld := ⟨(R.HEAD_LINE_MATCH h), 31, 1⟩
def HEAD_LINE_MATCH_LINE (h : Nat) : Fld := ⟨(R.HEAD_LINE_MATCH h), 0, 16⟩
def HEAD_UNDERRUN_CNT_COUNT (h : Nat) : Fld := ⟨(R.HEAD_UNDERRUN_CNT h), 0, 16⟩
def HEAD_UNDERRUN_INFO_CAUSE (h : Nat) : Fld := ⟨(R.HEAD_UNDERRUN_INFO h), 30, 2⟩
def HEAD_UNDERRUN_INFO_LAYER (h : Nat) : Fld := ⟨(R.HEAD_UNDERRUN_INFO h), 24, 3⟩
def HEAD_UNDERRUN_INFO_LINE (h : Nat) : Fld := ⟨(R.HEAD_UNDERRUN_INFO h), 0, 16⟩
def HEAD_ABORT_MAX_MAX (h : Nat) : Fld := ⟨(R.HEAD_ABORT_MAX h), 0, 4⟩
def HEAD_PHY_LAT_LAT (h : Nat) : Fld := ⟨(R.HEAD_PHY_LAT h), 0, 16⟩
def HEAD_BL_CTRL_BANK (h : Nat) : Fld := ⟨(R.HEAD_BL_CTRL h), 16, 1⟩
def HEAD_BL_CTRL_COUNT (h : Nat) : Fld := ⟨(R.HEAD_BL_CTRL h), 0, 11⟩
def HEAD_BL_STATUS_PENDING (h : Nat) : Fld := ⟨(R.HEAD_BL_STATUS h), 31, 1⟩
def HEAD_BL_STATUS_CHECKING (h : Nat) : Fld := ⟨(R.HEAD_BL_STATUS h), 30, 1⟩
def HEAD_BL_STATUS_ACTIVE (h : Nat) : Fld := ⟨(R.HEAD_BL_STATUS h), 29, 1⟩
def HEAD_BL_STATUS_ACTBANK (h : Nat) : Fld := ⟨(R.HEAD_BL_STATUS h), 28, 1⟩
def HEAD_BL_STATUS_REASON (h : Nat) : Fld := ⟨(R.HEAD_BL_STATUS h), 24, 4⟩
def HEAD_BL_STATUS_NEXT (h : Nat) : Fld := ⟨(R.HEAD_BL_STATUS h), 0, 11⟩
def HEAD_CHK_CTRL_DVEN (h : Nat) : Fld := ⟨(R.HEAD_CHK_CTRL h), 31, 1⟩
def HEAD_CHK_CTRL_RFGDV (h : Nat) : Fld := ⟨(R.HEAD_CHK_CTRL h), 30, 1⟩
def HEAD_CHK_CTRL_ESCALATE (h : Nat) : Fld := ⟨(R.HEAD_CHK_CTRL h), 29, 1⟩
def HEAD_CHK_CTRL_MAXAGE (h : Nat) : Fld := ⟨(R.HEAD_CHK_CTRL h), 24, 4⟩
def HEAD_CHK_STATUS_DVRUN (h : Nat) : Fld := ⟨(R.HEAD_CHK_STATUS h), 31, 1⟩
def HEAD_CHK_STATUS_DVSTOP (h : Nat) : Fld := ⟨(R.HEAD_CHK_STATUS h), 30, 1⟩
def HEAD_CHK_STATUS_RFGVIEW (h : Nat) : Fld := ⟨(R.HEAD_CHK_STATUS h), 29, 1⟩
def HEAD_CHK_STATUS_FRAMING (h : Nat) : Fld := ⟨(R.HEAD_CHK_STATUS h), 28, 1⟩
def HEAD_CHK_STATUS_REDUCED (h : Nat) : Fld := ⟨(R.HEAD_CHK_STATUS h), 27, 1⟩
def HEAD_CHK_STATUS_WBAD (h : Nat) : Fld := ⟨(R.HEAD_CHK_STATUS h), 26, 1⟩
def HEAD_CHK_STATUS_DIVMISS (h : Nat) : Fld := ⟨(R.HEAD_CHK_STATUS h), 25, 1⟩
def HEAD_CHK_STATUS_ESCAL (h : Nat) : Fld := ⟨(R.HEAD_CHK_STATUS h), 24, 1⟩
def HEAD_CHK_STATUS_STALE (h : Nat) : Fld := ⟨(R.HEAD_CHK_STATUS h), 0, 16⟩
def HEAD_CHK_IE_IE (h : Nat) : Fld := ⟨(R.HEAD_CHK_IE h), 24, 7⟩
def HEAD_CHK_WFAIL_W (h : Nat) : Fld := ⟨(R.HEAD_CHK_WFAIL h), 0, 16⟩
def HEAD_DV_HALF_HALF (h : Nat) : Fld := ⟨(R.HEAD_DV_HALF h), 0, 9⟩
def HEAD_CHK_FAILCNT_COUNT (h : Nat) : Fld := ⟨(R.HEAD_CHK_FAILCNT h), 0, 16⟩
def HEAD_CHK_RFGEXIT_EXIT (h : Nat) : Fld := ⟨(R.HEAD_CHK_RFGEXIT h), 0, 1⟩
def HEAD_W_RECT_A_Y0 (h n : Nat) : Fld := ⟨(R.HEAD_W_RECT_A h n), 16, 12⟩
def HEAD_W_RECT_A_X0 (h n : Nat) : Fld := ⟨(R.HEAD_W_RECT_A h n), 0, 12⟩
def HEAD_W_RECT_B_Y1 (h n : Nat) : Fld := ⟨(R.HEAD_W_RECT_B h n), 16, 12⟩
def HEAD_W_RECT_B_X1 (h n : Nat) : Fld := ⟨(R.HEAD_W_RECT_B h n), 0, 12⟩
def HEAD_W_CTRL_EN (h n : Nat) : Fld := ⟨(R.HEAD_W_CTRL h n), 31, 1⟩
def HEAD_W_CTRL_CEXP (h n : Nat) : Fld := ⟨(R.HEAD_W_CTRL h n), 30, 1⟩
def HEAD_W_CTRL_CINT (h n : Nat) : Fld := ⟨(R.HEAD_W_CTRL h n), 29, 1⟩
def HEAD_W_CTRL_CDIV (h n : Nat) : Fld := ⟨(R.HEAD_W_CTRL h n), 28, 1⟩
def HEAD_W_CTRL_AIRQ (h n : Nat) : Fld := ⟨(R.HEAD_W_CTRL h n), 23, 1⟩
def HEAD_W_CTRL_APRG (h n : Nat) : Fld := ⟨(R.HEAD_W_CTRL h n), 22, 1⟩
def HEAD_W_CTRL_ADV (h n : Nat) : Fld := ⟨(R.HEAD_W_CTRL h n), 21, 1⟩
def HEAD_W_CTRL_ARFG (h n : Nat) : Fld := ⟨(R.HEAD_W_CTRL h n), 20, 1⟩
def HEAD_W_CTRL_DIVUNIT (h n : Nat) : Fld := ⟨(R.HEAD_W_CTRL h n), 0, 12⟩
def HEAD_W_RESULT_VALID (h n : Nat) : Fld := ⟨(R.HEAD_W_RESULT h n), 31, 1⟩
def HEAD_W_RESULT_PASS (h n : Nat) : Fld := ⟨(R.HEAD_W_RESULT h n), 30, 1⟩
def HEAD_W_RESULT_EXPF (h n : Nat) : Fld := ⟨(R.HEAD_W_RESULT h n), 29, 1⟩
def HEAD_W_RESULT_INTF (h n : Nat) : Fld := ⟨(R.HEAD_W_RESULT h n), 28, 1⟩
def HEAD_W_RESULT_DIVF (h n : Nat) : Fld := ⟨(R.HEAD_W_RESULT h n), 27, 1⟩
def HEAD_W_RESULT_AGE (h n : Nat) : Fld := ⟨(R.HEAD_W_RESULT h n), 20, 4⟩
def HEAD_W_RESULT_FRAME (h n : Nat) : Fld := ⟨(R.HEAD_W_RESULT h n), 0, 16⟩
def SYS_MODE_TRANS : Fld := ⟨R.SYS_MODE, 31, 1⟩
def SYS_MODE_TARGET : Fld := ⟨R.SYS_MODE, 4, 3⟩
def SYS_MODE_MODE : Fld := ⟨R.SYS_MODE, 0, 3⟩
def SYS_MODE_REQ_CODE : Fld := ⟨R.SYS_MODE_REQ, 0, 3⟩
def SYS_MODE_RESULT_RESULT : Fld := ⟨R.SYS_MODE_RESULT, 0, 4⟩
def SYS_LEAN_CAUSE_ABORT : Fld := ⟨R.SYS_LEAN_CAUSE, 4, 4⟩
def SYS_LEAN_CAUSE_SPARE : Fld := ⟨R.SYS_LEAN_CAUSE, 3, 1⟩
def SYS_LEAN_CAUSE_SUPPLY : Fld := ⟨R.SYS_LEAN_CAUSE, 2, 1⟩
def SYS_LEAN_CAUSE_THERM : Fld := ⟨R.SYS_LEAN_CAUSE, 1, 1⟩
def SYS_LEAN_CAUSE_REQ : Fld := ⟨R.SYS_LEAN_CAUSE, 0, 1⟩
def SYS_REFUGE_CAUSE_REQ : Fld := ⟨R.SYS_REFUGE_CAUSE, 6, 1⟩
def SYS_REFUGE_CAUSE_LEANFAIL : Fld := ⟨R.SYS_REFUGE_CAUSE, 5, 1⟩
def SYS_REFUGE_CAUSE_THERMCRIT : Fld := ⟨R.SYS_REFUGE_CAUSE, 4, 1⟩
def SYS_REFUGE_CAUSE_ESCAL : Fld := ⟨R.SYS_REFUGE_CAUSE, 3, 1⟩
def SYS_REFUGE_CAUSE_ARRAY : Fld := ⟨R.SYS_REFUGE_CAUSE, 2, 1⟩
def SYS_REFUGE_CAUSE_SPARE : Fld := ⟨R.SYS_REFUGE_CAUSE, 1, 1⟩
def SYS_REFUGE_CAUSE_DFLT : Fld := ⟨R.SYS_REFUGE_CAUSE, 0, 1⟩
def SYS_EVT_STATUS_THERMCRIT : Fld := ⟨R.SYS_EVT_STATUS, 9, 1⟩
def SYS_EVT_STATUS_THERMLEAN : Fld := ⟨R.SYS_EVT_STATUS, 8, 1⟩
def SYS_EVT_STATUS_MODECHG : Fld := ⟨R.SYS_EVT_STATUS, 3, 1⟩
def SYS_EVT_STATUS_SUPWARN : Fld := ⟨R.SYS_EVT_STATUS, 2, 1⟩
def SYS_EVT_STATUS_RESUMED : Fld := ⟨R.SYS_EVT_STATUS, 1, 1⟩
def SYS_EVT_STATUS_PFW : Fld := ⟨R.SYS_EVT_STATUS, 0, 1⟩
def SYS_EVT_IE_TH : Fld := ⟨R.SYS_EVT_IE, 8, 2⟩
def SYS_EVT_IE_EV : Fld := ⟨R.SYS_EVT_IE, 0, 4⟩
def SYS_STATUS_DBGATT : Fld := ⟨R.SYS_STATUS, 31, 1⟩
def SYS_STATUS_COREPG : Fld := ⟨R.SYS_STATUS, 4, 1⟩
def SYS_STATUS_VSEL : Fld := ⟨R.SYS_STATUS, 3, 1⟩
def SYS_STATUS_SUPWARN : Fld := ⟨R.SYS_STATUS, 2, 1⟩
def SYS_STATUS_THERMCRIT : Fld := ⟨R.SYS_STATUS, 1, 1⟩
def SYS_STATUS_THERMLEAN : Fld := ⟨R.SYS_STATUS, 0, 1⟩
def SYS_RESET_CAUSE_DBG_ATTACHED : Fld := ⟨R.SYS_RESET_CAUSE, 31, 1⟩
def SYS_RESET_CAUSE_PFWBOOT : Fld := ⟨R.SYS_RESET_CAUSE, 7, 1⟩
def SYS_RESET_CAUSE_THERM : Fld := ⟨R.SYS_RESET_CAUSE, 6, 1⟩
def SYS_RESET_CAUSE_WAKE : Fld := ⟨R.SYS_RESET_CAUSE, 5, 1⟩
def SYS_RESET_CAUSE_DBGRST : Fld := ⟨R.SYS_RESET_CAUSE, 4, 1⟩
def SYS_RESET_CAUSE_SOFT : Fld := ⟨R.SYS_RESET_CAUSE, 3, 1⟩
def SYS_RESET_CAUSE_WDT : Fld := ⟨R.SYS_RESET_CAUSE, 2, 1⟩
def SYS_RESET_CAUSE_PIN : Fld := ⟨R.SYS_RESET_CAUSE, 1, 1⟩
def SYS_RESET_CAUSE_POR : Fld := ⟨R.SYS_RESET_CAUSE, 0, 1⟩
def SYS_RESET_KEY : Fld := ⟨R.SYS_RESET, 24, 8⟩
def SYS_RESET_GO : Fld := ⟨R.SYS_RESET, 0, 1⟩
def SYS_HOLD_CTRL_PFWEN : Fld := ⟨R.SYS_HOLD_CTRL, 31, 1⟩
def SYS_HOLD_CTRL_FILT : Fld := ⟨R.SYS_HOLD_CTRL, 8, 4⟩
def SYS_HOLD_CTRL_DELAY : Fld := ⟨R.SYS_HOLD_CTRL, 0, 6⟩
def SYS_HOLD_RET_RET : Fld := ⟨R.SYS_HOLD_RET, 0, 16⟩
def SYS_RESUME_VEC_ADDR : Fld := ⟨R.SYS_RESUME_VEC, 2, 30⟩
def SYS_RESUME_SP_ADDR : Fld := ⟨R.SYS_RESUME_SP, 2, 30⟩
def SYS_THERM_HYST : Fld := ⟨R.SYS_THERM, 16, 4⟩
def SYS_THERM_CRIT : Fld := ⟨R.SYS_THERM, 8, 8⟩
def SYS_THERM_LEAN : Fld := ⟨R.SYS_THERM, 0, 8⟩
def SYS_TEMP_TEMP : Fld := ⟨R.SYS_TEMP, 0, 16⟩
def SYS_CLK_STATUS_REFOK : Fld := ⟨R.SYS_CLK_STATUS, 4, 1⟩
def SYS_CLK_STATUS_DRAMLOCK : Fld := ⟨R.SYS_CLK_STATUS, 3, 1⟩
def SYS_CLK_STATUS_PCLKLOCK : Fld := ⟨R.SYS_CLK_STATUS, 2, 1⟩
def SYS_CLK_STATUS_ECLKLOCK : Fld := ⟨R.SYS_CLK_STATUS, 1, 1⟩
def SYS_CLK_STATUS_HALF : Fld := ⟨R.SYS_CLK_STATUS, 0, 1⟩
def SYS_VSEL_SETTLE : Fld := ⟨R.SYS_VSEL, 0, 10⟩
def SYS_WAKE_CTRL_PINPOL : Fld := ⟨R.SYS_WAKE_CTRL, 16, 4⟩
def SYS_WAKE_CTRL_PRGEN : Fld := ⟨R.SYS_WAKE_CTRL, 8, 1⟩
def SYS_WAKE_CTRL_TIMEN : Fld := ⟨R.SYS_WAKE_CTRL, 4, 1⟩
def SYS_WAKE_CTRL_PINEN : Fld := ⟨R.SYS_WAKE_CTRL, 0, 4⟩
def SYS_WAKE_SRC_PRG : Fld := ⟨R.SYS_WAKE_SRC, 8, 1⟩
def SYS_WAKE_SRC_TIM : Fld := ⟨R.SYS_WAKE_SRC, 4, 1⟩
def SYS_WAKE_SRC_PIN : Fld := ⟨R.SYS_WAKE_SRC, 0, 4⟩
def STORE_STATUS_PWRREF : Fld := ⟨R.STORE_STATUS, 8, 1⟩
def STORE_STATUS_PWRDONE : Fld := ⟨R.STORE_STATUS, 7, 1⟩
def STORE_STATUS_MARCHDONE : Fld := ⟨R.STORE_STATUS, 6, 1⟩
def STORE_STATUS_SCRUBDONE : Fld := ⟨R.STORE_STATUS, 5, 1⟩
def STORE_STATUS_HOTO : Fld := ⟨R.STORE_STATUS, 4, 1⟩
def STORE_STATUS_HANDOVER : Fld := ⟨R.STORE_STATUS, 3, 1⟩
def STORE_STATUS_OWNREF : Fld := ⟨R.STORE_STATUS, 2, 1⟩
def STORE_STATUS_UE : Fld := ⟨R.STORE_STATUS, 1, 1⟩
def STORE_STATUS_CE : Fld := ⟨R.STORE_STATUS, 0, 1⟩
def STORE_IE_IE : Fld := ⟨R.STORE_IE, 0, 9⟩
def STORE_ACC_ERR_VALID : Fld := ⟨R.STORE_ACC_ERR, 31, 1⟩
def STORE_ACC_ERR_OVF : Fld := ⟨R.STORE_ACC_ERR, 30, 1⟩
def STORE_ACC_ERR_REQ : Fld := ⟨R.STORE_ACC_ERR, 16, 6⟩
def STORE_ACC_ERR_OWNER : Fld := ⟨R.STORE_ACC_ERR, 8, 6⟩
def STORE_ACC_ERR_WRITE : Fld := ⟨R.STORE_ACC_ERR, 4, 1⟩
def STORE_ACC_ERR_BANK : Fld := ⟨R.STORE_ACC_ERR, 0, 4⟩
def STORE_HO_TIMEOUT_LIMIT : Fld := ⟨R.STORE_HO_TIMEOUT, 0, 16⟩
def STORE_PWR_BANKS : Fld := ⟨R.STORE_PWR, 0, 32⟩
def STORE_PWR_STATUS_COMING : Fld := ⟨R.STORE_PWR_STATUS, 0, 16⟩
def STORE_BOOT_FAIL_LSTORE : Fld := ⟨R.STORE_BOOT_FAIL, 18, 1⟩
def STORE_BOOT_FAIL_CCDATA : Fld := ⟨R.STORE_BOOT_FAIL, 17, 1⟩
def STORE_BOOT_FAIL_CCINSTR : Fld := ⟨R.STORE_BOOT_FAIL, 16, 1⟩
def STORE_BOOT_FAIL_BANK : Fld := ⟨R.STORE_BOOT_FAIL, 0, 16⟩
def STORE_OWNER_BUSY (n : Nat) : Fld := ⟨(R.STORE_OWNER n), 31, 1⟩
def STORE_OWNER_LOCK (n : Nat) : Fld := ⟨(R.STORE_OWNER n), 30, 1⟩
def STORE_OWNER_PREV (n : Nat) : Fld := ⟨(R.STORE_OWNER n), 8, 6⟩
def STORE_OWNER_OWNER (n : Nat) : Fld := ⟨(R.STORE_OWNER n), 0, 6⟩
def STORE_ECC_CNT_CE (c : Nat) : Fld := ⟨(R.STORE_ECC_CNT c), 16, 16⟩
def STORE_ECC_CNT_UE (c : Nat) : Fld := ⟨(R.STORE_ECC_CNT c), 0, 16⟩
def STORE_UE_INFO_VALID : Fld := ⟨R.STORE_UE_INFO, 31, 1⟩
def STORE_UE_INFO_OVF : Fld := ⟨R.STORE_UE_INFO, 30, 1⟩
def STORE_UE_INFO_READER : Fld := ⟨R.STORE_UE_INFO, 4, 3⟩
def STORE_UE_INFO_CLASS : Fld := ⟨R.STORE_UE_INFO, 0, 3⟩
def STORE_ECC_INJ_INJ : Fld := ⟨R.STORE_ECC_INJ, 31, 1⟩
def STORE_ECC_INJ_MASK : Fld := ⟨R.STORE_ECC_INJ, 8, 5⟩
def STORE_ECC_INJ_BANK : Fld := ⟨R.STORE_ECC_INJ, 0, 4⟩
def SCRUB_CTRL_STOP : Fld := ⟨R.SCRUB_CTRL, 2, 1⟩
def SCRUB_CTRL_FIX : Fld := ⟨R.SCRUB_CTRL, 1, 1⟩
def SCRUB_CTRL_GO : Fld := ⟨R.SCRUB_CTRL, 0, 1⟩
def SCRUB_START_ADDR : Fld := ⟨R.SCRUB_START, 2, 30⟩
def SCRUB_END_ADDR : Fld := ⟨R.SCRUB_END, 2, 30⟩
def SCRUB_STATUS_BUSY : Fld := ⟨R.SCRUB_STATUS, 31, 1⟩
def SCRUB_STATUS_DONE : Fld := ⟨R.SCRUB_STATUS, 30, 1⟩
def SCRUB_STATUS_REFUSED : Fld := ⟨R.SCRUB_STATUS, 29, 1⟩
def SCRUB_STATUS_ABORTED : Fld := ⟨R.SCRUB_STATUS, 28, 1⟩
def SCRUB_STATUS_SKIPPED : Fld := ⟨R.SCRUB_STATUS, 27, 1⟩
def SCRUB_ERRS_CORR : Fld := ⟨R.SCRUB_ERRS, 16, 16⟩
def SCRUB_ERRS_UNCORR : Fld := ⟨R.SCRUB_ERRS, 0, 16⟩
def STORE_MARCH_CTRL_GO : Fld := ⟨R.STORE_MARCH_CTRL, 31, 1⟩
def STORE_MARCH_CTRL_MODE : Fld := ⟨R.STORE_MARCH_CTRL, 8, 1⟩
def STORE_MARCH_CTRL_BANK : Fld := ⟨R.STORE_MARCH_CTRL, 0, 4⟩
def STORE_MARCH_STATUS_BUSY : Fld := ⟨R.STORE_MARCH_STATUS, 31, 1⟩
def STORE_MARCH_STATUS_DONE : Fld := ⟨R.STORE_MARCH_STATUS, 30, 1⟩
def STORE_MARCH_STATUS_FAIL : Fld := ⟨R.STORE_MARCH_STATUS, 29, 1⟩
def STORE_MARCH_STATUS_REFUSED : Fld := ⟨R.STORE_MARCH_STATUS, 28, 1⟩
def STORE_MARCH_STATUS_FAILCNT : Fld := ⟨R.STORE_MARCH_STATUS, 0, 16⟩
def BLIT_CTRL_STOP : Fld := ⟨R.BLIT_CTRL, 1, 1⟩
def BLIT_CTRL_GO : Fld := ⟨R.BLIT_CTRL, 0, 1⟩
def BLIT_STATUS_BUSY : Fld := ⟨R.BLIT_STATUS, 31, 1⟩
def BLIT_STATUS_PACEWAIT : Fld := ⟨R.BLIT_STATUS, 30, 1⟩
def BLIT_STATUS_REFUSED : Fld := ⟨R.BLIT_STATUS, 4, 1⟩
def BLIT_STATUS_LATE : Fld := ⟨R.BLIT_STATUS, 3, 1⟩
def BLIT_STATUS_WMARK : Fld := ⟨R.BLIT_STATUS, 2, 1⟩
def BLIT_STATUS_ERR : Fld := ⟨R.BLIT_STATUS, 1, 1⟩
def BLIT_STATUS_DONE : Fld := ⟨R.BLIT_STATUS, 0, 1⟩
def BLIT_IE_IE : Fld := ⟨R.BLIT_IE, 0, 4⟩
def BLIT_LIST_ADDR : Fld := ⟨R.BLIT_LIST, 5, 27⟩
def BLIT_ERR_INFO_INDEX : Fld := ⟨R.BLIT_ERR_INFO, 16, 16⟩
def BLIT_ERR_INFO_CODE : Fld := ⟨R.BLIT_ERR_INFO, 0, 4⟩
def BLIT_PACE_HEAD : Fld := ⟨R.BLIT_PACE, 28, 2⟩
def BLIT_PACE_N : Fld := ⟨R.BLIT_PACE, 16, 4⟩
def BLIT_PACE_OFFSET : Fld := ⟨R.BLIT_PACE, 0, 16⟩
def BLIT_WROW_ROW : Fld := ⟨R.BLIT_WROW, 0, 16⟩
def DMA_ACTIVE_ARMED : Fld := ⟨R.DMA_ACTIVE, 8, 8⟩
def DMA_ACTIVE_BUSY : Fld := ⟨R.DMA_ACTIVE, 0, 8⟩
def DMA_CH_CTRL_GO (n : Nat) : Fld := ⟨(R.DMA_CH_CTRL n), 31, 1⟩
def DMA_CH_CTRL_STOP (n : Nat) : Fld := ⟨(R.DMA_CH_CTRL n), 30, 1⟩
def DMA_CH_CTRL_ARM (n : Nat) : Fld := ⟨(R.DMA_CH_CTRL n), 29, 1⟩
def DMA_CH_CTRL_REARM (n : Nat) : Fld := ⟨(R.DMA_CH_CTRL n), 28, 1⟩
def DMA_CH_CTRL_TRIG (n : Nat) : Fld := ⟨(R.DMA_CH_CTRL n), 16, 6⟩
def DMA_CH_CTRL_SWAP (n : Nat) : Fld := ⟨(R.DMA_CH_CTRL n), 8, 2⟩
def DMA_CH_CTRL_ESIZE (n : Nat) : Fld := ⟨(R.DMA_CH_CTRL n), 4, 2⟩
def DMA_CH_CTRL_ERRIE (n : Nat) : Fld := ⟨(R.DMA_CH_CTRL n), 1, 1⟩
def DMA_CH_CTRL_DONEIE (n : Nat) : Fld := ⟨(R.DMA_CH_CTRL n), 0, 1⟩
def DMA_CH_STATUS_BUSY (n : Nat) : Fld := ⟨(R.DMA_CH_STATUS n), 31, 1⟩
def DMA_CH_STATUS_ARMED (n : Nat) : Fld := ⟨(R.DMA_CH_STATUS n), 30, 1⟩
def DMA_CH_STATUS_CODE (n : Nat) : Fld := ⟨(R.DMA_CH_STATUS n), 4, 4⟩
def DMA_CH_STATUS_TRIGOVR (n : Nat) : Fld := ⟨(R.DMA_CH_STATUS n), 3, 1⟩
def DMA_CH_STATUS_REFUSED (n : Nat) : Fld := ⟨(R.DMA_CH_STATUS n), 2, 1⟩
def DMA_CH_STATUS_ERR (n : Nat) : Fld := ⟨(R.DMA_CH_STATUS n), 1, 1⟩
def DMA_CH_STATUS_DONE (n : Nat) : Fld := ⟨(R.DMA_CH_STATUS n), 0, 1⟩
def DMA_CH_CNT01_C1 (n : Nat) : Fld := ⟨(R.DMA_CH_CNT01 n), 16, 16⟩
def DMA_CH_CNT01_C0 (n : Nat) : Fld := ⟨(R.DMA_CH_CNT01 n), 0, 16⟩
def DMA_CH_CNT2_C2 (n : Nat) : Fld := ⟨(R.DMA_CH_CNT2 n), 0, 16⟩
def DMA_CH_POS01_K1 (n : Nat) : Fld := ⟨(R.DMA_CH_POS01 n), 16, 16⟩
def DMA_CH_POS01_K0 (n : Nat) : Fld := ⟨(R.DMA_CH_POS01 n), 0, 16⟩
def DMA_CH_POS2_K2 (n : Nat) : Fld := ⟨(R.DMA_CH_POS2 n), 0, 16⟩
def CAM_CTRL_EN (n : Nat) : Fld := ⟨(R.CAM_CTRL n), 31, 1⟩
def CAM_CTRL_NBUF (n : Nat) : Fld := ⟨(R.CAM_CTRL n), 16, 2⟩
def CAM_CTRL_BADIE (n : Nat) : Fld := ⟨(R.CAM_CTRL n), 1, 1⟩
def CAM_CTRL_DONEIE (n : Nat) : Fld := ⟨(R.CAM_CTRL n), 0, 1⟩
def CAM_STATUS_RUN (n : Nat) : Fld := ⟨(R.CAM_STATUS n), 31, 1⟩
def CAM_STATUS_INFRAME (n : Nat) : Fld := ⟨(R.CAM_STATUS n), 30, 1⟩
def CAM_STATUS_WBUF (n : Nat) : Fld := ⟨(R.CAM_STATUS n), 28, 2⟩
def CAM_STATUS_CFGERR (n : Nat) : Fld := ⟨(R.CAM_STATUS n), 24, 4⟩
def CAM_STATUS_REFUSED (n : Nat) : Fld := ⟨(R.CAM_STATUS n), 3, 1⟩
def CAM_STATUS_DROP (n : Nat) : Fld := ⟨(R.CAM_STATUS n), 2, 1⟩
def CAM_STATUS_BAD (n : Nat) : Fld := ⟨(R.CAM_STATUS n), 1, 1⟩
def CAM_STATUS_DONE (n : Nat) : Fld := ⟨(R.CAM_STATUS n), 0, 1⟩
def CAM_FMT_VC (n : Nat) : Fld := ⟨(R.CAM_FMT n), 24, 2⟩
def CAM_FMT_DT (n : Nat) : Fld := ⟨(R.CAM_FMT n), 16, 6⟩
def CAM_FMT_OUT (n : Nat) : Fld := ⟨(R.CAM_FMT n), 0, 3⟩
def CAM_PHY_LANES (n : Nat) : Fld := ⟨(R.CAM_PHY n), 16, 2⟩
def CAM_PHY_SETTLE (n : Nat) : Fld := ⟨(R.CAM_PHY n), 0, 8⟩
def CAM_SIZE_HEIGHT (n : Nat) : Fld := ⟨(R.CAM_SIZE n), 16, 13⟩
def CAM_SIZE_WIDTH (n : Nat) : Fld := ⟨(R.CAM_SIZE n), 0, 13⟩
def CAM_STRIDE_CSTRIDE (n : Nat) : Fld := ⟨(R.CAM_STRIDE n), 16, 16⟩
def CAM_STRIDE_STRIDE (n : Nat) : Fld := ⟨(R.CAM_STRIDE n), 0, 16⟩
def CAM_LOCK_LOCK (n : Nat) : Fld := ⟨(R.CAM_LOCK n), 0, 4⟩
def CAM_DONE_INFO_BUF (n : Nat) : Fld := ⟨(R.CAM_DONE_INFO n), 16, 2⟩
def CAM_DONE_INFO_FRM (n : Nat) : Fld := ⟨(R.CAM_DONE_INFO n), 0, 16⟩
def CAM_ERRCNT_BAD (n : Nat) : Fld := ⟨(R.CAM_ERRCNT n), 16, 16⟩
def CAM_ERRCNT_DROP (n : Nat) : Fld := ⟨(R.CAM_ERRCNT n), 0, 16⟩
def CAM_ERR_INFO_CAUSE (n : Nat) : Fld := ⟨(R.CAM_ERR_INFO n), 0, 3⟩
def AUD_CTRL_EN : Fld := ⟨R.AUD_CTRL, 31, 1⟩
def AUD_CTRL_CLKSRC : Fld := ⟨R.AUD_CTRL, 16, 1⟩
def AUD_STATUS_RUN : Fld := ⟨R.AUD_STATUS, 31, 1⟩
def AUD_STATUS_MCLKEXT : Fld := ⟨R.AUD_STATUS, 30, 1⟩
def AUD_STATUS_MCLKLOST : Fld := ⟨R.AUD_STATUS, 13, 1⟩
def AUD_STATUS_BUSERR : Fld := ⟨R.AUD_STATUS, 12, 1⟩
def AUD_STATUS_CLIP : Fld := ⟨R.AUD_STATUS, 11, 1⟩
def AUD_STATUS_LIMIT : Fld := ⟨R.AUD_STATUS, 10, 1⟩
def AUD_STATUS_VEVT : Fld := ⟨R.AUD_STATUS, 9, 1⟩
def AUD_STATUS_SSTARV : Fld := ⟨R.AUD_STATUS, 4, 4⟩
def AUD_STATUS_SLOW : Fld := ⟨R.AUD_STATUS, 0, 4⟩
def AUD_IE_IEH : Fld := ⟨R.AUD_IE, 9, 5⟩
def AUD_IE_IEL : Fld := ⟨R.AUD_IE, 0, 8⟩
def AUD_VEVT_BITS : Fld := ⟨R.AUD_VEVT, 0, 32⟩
def AUD_P_CFG_RATE (p : Nat) : Fld := ⟨(R.AUD_P_CFG p), 16, 1⟩
def AUD_P_CFG_FSPOL (p : Nat) : Fld := ⟨(R.AUD_P_CFG p), 12, 1⟩
def AUD_P_CFG_DELAY (p : Nat) : Fld := ⟨(R.AUD_P_CFG p), 8, 1⟩
def AUD_P_CFG_WIDTH (p : Nat) : Fld := ⟨(R.AUD_P_CFG p), 4, 1⟩
def AUD_P_CFG_MODE (p : Nat) : Fld := ⟨(R.AUD_P_CFG p), 0, 2⟩
def AUD_CH_SEL_GAIN (c : Nat) : Fld := ⟨(R.AUD_CH_SEL c), 16, 16⟩
def AUD_CH_SEL_BUSES (c : Nat) : Fld := ⟨(R.AUD_CH_SEL c), 0, 4⟩
def AUD_DUCK_CTRL_MASK : Fld := ⟨R.AUD_DUCK_CTRL, 1, 3⟩
def AUD_DUCK_THR_THR : Fld := ⟨R.AUD_DUCK_THR, 0, 23⟩
def AUD_DUCK_GAIN_DGAIN : Fld := ⟨R.AUD_DUCK_GAIN, 16, 16⟩
def AUD_DUCK_GAIN_STEP : Fld := ⟨R.AUD_DUCK_GAIN, 0, 16⟩
def AUD_DUCK_HOLD_HOLD : Fld := ⟨R.AUD_DUCK_HOLD, 0, 16⟩
def AUD_B_CTRL_COMMIT (b : Nat) : Fld := ⟨(R.AUD_B_CTRL b), 31, 1⟩
def AUD_B_CTRL_LIMEN (b : Nat) : Fld := ⟨(R.AUD_B_CTRL b), 2, 1⟩
def AUD_B_CTRL_BQBEN (b : Nat) : Fld := ⟨(R.AUD_B_CTRL b), 1, 1⟩
def AUD_B_CTRL_BQAEN (b : Nat) : Fld := ⟨(R.AUD_B_CTRL b), 0, 1⟩
def AUD_B_GAIN_GAIN (b : Nat) : Fld := ⟨(R.AUD_B_GAIN b), 0, 16⟩
def AUD_B_LIMIT_RELEASE (b : Nat) : Fld := ⟨(R.AUD_B_LIMIT b), 24, 8⟩
def AUD_B_LIMIT_THR (b : Nat) : Fld := ⟨(R.AUD_B_LIMIT b), 0, 23⟩
def AUD_V_CTRL_EN (n : Nat) : Fld := ⟨(R.AUD_V_CTRL n), 31, 1⟩
def AUD_V_CTRL_RETRIG (n : Nat) : Fld := ⟨(R.AUD_V_CTRL n), 30, 1⟩
def AUD_V_CTRL_BUS (n : Nat) : Fld := ⟨(R.AUD_V_CTRL n), 24, 2⟩
def AUD_V_CTRL_WAVE (n : Nat) : Fld := ⟨(R.AUD_V_CTRL n), 16, 3⟩
def AUD_V_CTRL_DUTY (n : Nat) : Fld := ⟨(R.AUD_V_CTRL n), 0, 8⟩
def AUD_V_GAIN_GAIN (n : Nat) : Fld := ⟨(R.AUD_V_GAIN n), 0, 16⟩
def AUD_V_LEN_LEN (n : Nat) : Fld := ⟨(R.AUD_V_LEN n), 0, 24⟩
def AUD_V_LOOP_LOOPEN (n : Nat) : Fld := ⟨(R.AUD_V_LOOP n), 31, 1⟩
def AUD_V_LOOP_START (n : Nat) : Fld := ⟨(R.AUD_V_LOOP n), 0, 24⟩
def AUD_V_WPTR_WPTR (n : Nat) : Fld := ⟨(R.AUD_V_WPTR n), 0, 24⟩
def AUD_V_POS_POS (n : Nat) : Fld := ⟨(R.AUD_V_POS n), 0, 24⟩
def ICU_EOI_EOI : Fld := ⟨R.ICU_EOI, 0, 1⟩
def ICU_RUNPRI_EMPTY : Fld := ⟨R.ICU_RUNPRI, 31, 1⟩
def ICU_RUNPRI_DEPTH : Fld := ⟨R.ICU_RUNPRI, 16, 5⟩
def ICU_RUNPRI_SOURCE : Fld := ⟨R.ICU_RUNPRI, 8, 8⟩
def ICU_RUNPRI_PRIO : Fld := ⟨R.ICU_RUNPRI, 0, 4⟩
def ICU_STATUS_EOIERR : Fld := ⟨R.ICU_STATUS, 0, 1⟩
def ICU_HIPEND_VALID : Fld := ⟨R.ICU_HIPEND, 31, 1⟩
def ICU_HIPEND_OFFER : Fld := ⟨R.ICU_HIPEND, 30, 1⟩
def ICU_HIPEND_SOURCE : Fld := ⟨R.ICU_HIPEND, 8, 8⟩
def ICU_HIPEND_PRIO : Fld := ⟨R.ICU_HIPEND, 0, 4⟩
def ICU_PEND_BITS (k : Nat) : Fld := ⟨(R.ICU_PEND k), 0, 32⟩
def ICU_SET_BITS (k : Nat) : Fld := ⟨(R.ICU_SET k), 0, 32⟩
def ICU_EN_BITS (k : Nat) : Fld := ⟨(R.ICU_EN k), 0, 32⟩
def ICU_ACT_BITS (k : Nat) : Fld := ⟨(R.ICU_ACT k), 0, 32⟩
def ICU_SRC_RAW (n : Nat) : Fld := ⟨(R.ICU_SRC n), 31, 1⟩
def ICU_SRC_FILTERED (n : Nat) : Fld := ⟨(R.ICU_SRC n), 30, 1⟩
def ICU_SRC_FILT (n : Nat) : Fld := ⟨(R.ICU_SRC n), 8, 4⟩
def ICU_SRC_PRIO (n : Nat) : Fld := ⟨(R.ICU_SRC n), 0, 4⟩
def ICU_STACK_VALID (i : Nat) : Fld := ⟨(R.ICU_STACK i), 31, 1⟩
def ICU_STACK_SOURCE (i : Nat) : Fld := ⟨(R.ICU_STACK i), 8, 8⟩
def ICU_STACK_PRIO (i : Nat) : Fld := ⟨(R.ICU_STACK i), 0, 4⟩
def TIM_CTRL_EN (t : Nat) : Fld := ⟨(R.TIM_CTRL t), 31, 1⟩
def TIM_CTRL_ONESHOT (t : Nat) : Fld := ⟨(R.TIM_CTRL t), 30, 1⟩
def TIM_CTRL_FRZ (t : Nat) : Fld := ⟨(R.TIM_CTRL t), 29, 1⟩
def TIM_CTRL_STARTEV (t : Nat) : Fld := ⟨(R.TIM_CTRL t), 16, 6⟩
def TIM_CTRL_STOPEV (t : Nat) : Fld := ⟨(R.TIM_CTRL t), 8, 6⟩
def TIM_STATUS_RUN (t : Nat) : Fld := ⟨(R.TIM_STATUS t), 31, 1⟩
def TIM_STATUS_OVF (t : Nat) : Fld := ⟨(R.TIM_STATUS t), 8, 1⟩
def TIM_STATUS_CH (t : Nat) : Fld := ⟨(R.TIM_STATUS t), 0, 4⟩
def TIM_IE_OVF (t : Nat) : Fld := ⟨(R.TIM_IE t), 8, 1⟩
def TIM_IE_CH (t : Nat) : Fld := ⟨(R.TIM_IE t), 0, 4⟩
def TIM_PSC_PSC (t : Nat) : Fld := ⟨(R.TIM_PSC t), 0, 16⟩
def TIM_CAPFLAG_OVRF0 (t : Nat) : Fld := ⟨(R.TIM_CAPFLAG t), 3, 1⟩
def TIM_CAPFLAG_OVRR0 (t : Nat) : Fld := ⟨(R.TIM_CAPFLAG t), 2, 1⟩
def TIM_CAPFLAG_NEWF0 (t : Nat) : Fld := ⟨(R.TIM_CAPFLAG t), 1, 1⟩
def TIM_CAPFLAG_NEWR0 (t : Nat) : Fld := ⟨(R.TIM_CAPFLAG t), 0, 1⟩
def TIM_CAPFLAG_OVRF1 (t : Nat) : Fld := ⟨(R.TIM_CAPFLAG t), 7, 1⟩
def TIM_CAPFLAG_OVRR1 (t : Nat) : Fld := ⟨(R.TIM_CAPFLAG t), 6, 1⟩
def TIM_CAPFLAG_NEWF1 (t : Nat) : Fld := ⟨(R.TIM_CAPFLAG t), 5, 1⟩
def TIM_CAPFLAG_NEWR1 (t : Nat) : Fld := ⟨(R.TIM_CAPFLAG t), 4, 1⟩
def TIM_CAPFLAG_OVRF2 (t : Nat) : Fld := ⟨(R.TIM_CAPFLAG t), 11, 1⟩
def TIM_CAPFLAG_OVRR2 (t : Nat) : Fld := ⟨(R.TIM_CAPFLAG t), 10, 1⟩
def TIM_CAPFLAG_NEWF2 (t : Nat) : Fld := ⟨(R.TIM_CAPFLAG t), 9, 1⟩
def TIM_CAPFLAG_NEWR2 (t : Nat) : Fld := ⟨(R.TIM_CAPFLAG t), 8, 1⟩
def TIM_CAPFLAG_OVRF3 (t : Nat) : Fld := ⟨(R.TIM_CAPFLAG t), 15, 1⟩
def TIM_CAPFLAG_OVRR3 (t : Nat) : Fld := ⟨(R.TIM_CAPFLAG t), 14, 1⟩
def TIM_CAPFLAG_NEWF3 (t : Nat) : Fld := ⟨(R.TIM_CAPFLAG t), 13, 1⟩
def TIM_CAPFLAG_NEWR3 (t : Nat) : Fld := ⟨(R.TIM_CAPFLAG t), 12, 1⟩
def TIM_CCFG_OUT (t c : Nat) : Fld := ⟨(R.TIM_CCFG t c), 31, 1⟩
def TIM_CCFG_OVFACT (t c : Nat) : Fld := ⟨(R.TIM_CCFG t c), 8, 2⟩
def TIM_CCFG_MATCHACT (t c : Nat) : Fld := ⟨(R.TIM_CCFG t c), 4, 2⟩
def TIM_CCFG_MODE (t c : Nat) : Fld := ⟨(R.TIM_CCFG t c), 0, 2⟩
def WDT_CTRL_EN : Fld := ⟨R.WDT_CTRL, 31, 1⟩
def WDT_CTRL_DBGFRZ : Fld := ⟨R.WDT_CTRL, 30, 1⟩
def WDT_STATUS_RUN : Fld := ⟨R.WDT_STATUS, 31, 1⟩
def WDT_STATUS_FROZEN : Fld := ⟨R.WDT_STATUS, 30, 1⟩
def WDT_STATUS_REFUSED : Fld := ⟨R.WDT_STATUS, 1, 1⟩
def WDT_STATUS_WARN : Fld := ⟨R.WDT_STATUS, 0, 1⟩
def WDT_WIN_LF : Fld := ⟨R.WDT_WIN, 0, 24⟩
def WDT_WARN_LF : Fld := ⟨R.WDT_WARN, 0, 24⟩
def WDT_TIMEOUT_LF : Fld := ⟨R.WDT_TIMEOUT, 0, 24⟩
def WDT_SERVICE_KEY : Fld := ⟨R.WDT_SERVICE, 0, 8⟩
def WDT_COUNT_LF : Fld := ⟨R.WDT_COUNT, 0, 24⟩
def ADC_CTRL_EN : Fld := ⟨R.ADC_CTRL, 31, 1⟩
def ADC_CTRL_TRIG : Fld := ⟨R.ADC_CTRL, 16, 6⟩
def ADC_CTRL_LEN : Fld := ⟨R.ADC_CTRL, 8, 4⟩
def ADC_CTRL_SMP : Fld := ⟨R.ADC_CTRL, 0, 8⟩
def ADC_STATUS_BUSY : Fld := ⟨R.ADC_STATUS, 31, 1⟩
def ADC_STATUS_READY : Fld := ⟨R.ADC_STATUS, 30, 1⟩
def ADC_STATUS_SEQERR : Fld := ⟨R.ADC_STATUS, 3, 1⟩
def ADC_STATUS_TRIGOVR : Fld := ⟨R.ADC_STATUS, 2, 1⟩
def ADC_STATUS_OVR : Fld := ⟨R.ADC_STATUS, 1, 1⟩
def ADC_STATUS_DONE : Fld := ⟨R.ADC_STATUS, 0, 1⟩
def ADC_IE_IE : Fld := ⟨R.ADC_IE, 0, 4⟩
def ADC_START_START : Fld := ⟨R.ADC_START, 0, 1⟩
def ADC_RES_NEW (i : Nat) : Fld := ⟨(R.ADC_RES i), 31, 1⟩
def ADC_RES_OVR (i : Nat) : Fld := ⟨(R.ADC_RES i), 30, 1⟩
def ADC_RES_CH (i : Nat) : Fld := ⟨(R.ADC_RES i), 24, 4⟩
def PCIE_CTRL_LINKEN : Fld := ⟨R.PCIE_CTRL, 0, 1⟩
def PCIE_STATUS_STRAP : Fld := ⟨R.PCIE_STATUS, 31, 1⟩
def PCIE_STATUS_LINKUP : Fld := ⟨R.PCIE_STATUS, 30, 1⟩
def PCIE_STATUS_WIDTH : Fld := ⟨R.PCIE_STATUS, 28, 2⟩
def PCIE_STATUS_SPEED : Fld := ⟨R.PCIE_STATUS, 26, 2⟩
def PCIE_STATUS_ERR : Fld := ⟨R.PCIE_STATUS, 3, 1⟩
def PCIE_STATUS_MSIDROP : Fld := ⟨R.PCIE_STATUS, 2, 1⟩
def PCIE_STATUS_H2D : Fld := ⟨R.PCIE_STATUS, 1, 1⟩
def PCIE_STATUS_LINKCHG : Fld := ⟨R.PCIE_STATUS, 0, 1⟩
def PCIE_IE_IE : Fld := ⟨R.PCIE_IE, 0, 4⟩
def PCIE_ID_DEVICE : Fld := ⟨R.PCIE_ID, 16, 16⟩
def PCIE_ID_VENDOR : Fld := ⟨R.PCIE_ID, 0, 16⟩
def PCIE_MSIX_SEND_BITS : Fld := ⟨R.PCIE_MSIX_SEND, 0, 32⟩
def PCIE_VSRC_SRC (v : Nat) : Fld := ⟨(R.PCIE_VSRC v), 0, 8⟩
def ETH_CTRL_TXEN (n : Nat) : Fld := ⟨(R.ETH_CTRL n), 31, 1⟩
def ETH_CTRL_RXEN (n : Nat) : Fld := ⟨(R.ETH_CTRL n), 30, 1⟩
def ETH_CTRL_SPEED (n : Nat) : Fld := ⟨(R.ETH_CTRL n), 24, 2⟩
def ETH_CTRL_TXDLY (n : Nat) : Fld := ⟨(R.ETH_CTRL n), 21, 1⟩
def ETH_CTRL_RXDLY (n : Nat) : Fld := ⟨(R.ETH_CTRL n), 20, 1⟩
def ETH_CTRL_UNTAG (n : Nat) : Fld := ⟨(R.ETH_CTRL n), 4, 1⟩
def ETH_CTRL_PROMISC (n : Nat) : Fld := ⟨(R.ETH_CTRL n), 3, 1⟩
def ETH_CTRL_BCAST (n : Nat) : Fld := ⟨(R.ETH_CTRL n), 2, 1⟩
def ETH_CTRL_VLANEN (n : Nat) : Fld := ⟨(R.ETH_CTRL n), 1, 1⟩
def ETH_CTRL_ETYPEEN (n : Nat) : Fld := ⟨(R.ETH_CTRL n), 0, 1⟩
def ETH_STATUS_TXRUN (n : Nat) : Fld := ⟨(R.ETH_STATUS n), 31, 1⟩
def ETH_STATUS_RXRUN (n : Nat) : Fld := ⟨(R.ETH_STATUS n), 30, 1⟩
def ETH_STATUS_ERR (n : Nat) : Fld := ⟨(R.ETH_STATUS n), 4, 1⟩
def ETH_STATUS_RXNOBUF (n : Nat) : Fld := ⟨(R.ETH_STATUS n), 3, 1⟩
def ETH_STATUS_TXIDLE (n : Nat) : Fld := ⟨(R.ETH_STATUS n), 2, 1⟩
def ETH_STATUS_RXDONE (n : Nat) : Fld := ⟨(R.ETH_STATUS n), 1, 1⟩
def ETH_STATUS_TXDONE (n : Nat) : Fld := ⟨(R.ETH_STATUS n), 0, 1⟩
def ETH_IE_IE (n : Nat) : Fld := ⟨(R.ETH_IE n), 0, 5⟩
def ETH_TXPOLL_POLL (n : Nat) : Fld := ⟨(R.ETH_TXPOLL n), 0, 1⟩
def ETH_VID_EN (n k : Nat) : Fld := ⟨(R.ETH_VID n k), 31, 1⟩
def ETH_VID_VID (n k : Nat) : Fld := ⟨(R.ETH_VID n k), 0, 12⟩
def ETH_ETYPE_EN (n k : Nat) : Fld := ⟨(R.ETH_ETYPE n k), 31, 1⟩
def ETH_ETYPE_TYPE (n k : Nat) : Fld := ⟨(R.ETH_ETYPE n k), 0, 16⟩
def ETH_TXLEN_LEN (n : Nat) : Fld := ⟨(R.ETH_TXLEN n), 0, 9⟩
def ETH_TXHEAD_HEAD (n : Nat) : Fld := ⟨(R.ETH_TXHEAD n), 0, 8⟩
def ETH_RXLEN_LEN (n : Nat) : Fld := ⟨(R.ETH_RXLEN n), 0, 9⟩
def ETH_RXHEAD_HEAD (n : Nat) : Fld := ⟨(R.ETH_RXHEAD n), 0, 8⟩
def ETH_MDIO_GO (n : Nat) : Fld := ⟨(R.ETH_MDIO n), 31, 1⟩
def ETH_MDIO_READ (n : Nat) : Fld := ⟨(R.ETH_MDIO n), 30, 1⟩
def ETH_MDIO_BUSY (n : Nat) : Fld := ⟨(R.ETH_MDIO n), 29, 1⟩
def ETH_MDIO_PHY (n : Nat) : Fld := ⟨(R.ETH_MDIO n), 21, 5⟩
def ETH_MDIO_REG (n : Nat) : Fld := ⟨(R.ETH_MDIO n), 16, 5⟩
def ETH_MDIO_DATA (n : Nat) : Fld := ⟨(R.ETH_MDIO n), 0, 16⟩
def ETH_CNT_DROP_FILT (n : Nat) : Fld := ⟨(R.ETH_CNT_DROP n), 16, 16⟩
def ETH_CNT_DROP_NOBUF (n : Nat) : Fld := ⟨(R.ETH_CNT_DROP n), 0, 16⟩
def ETH_CNT_ERR_FCS (n : Nat) : Fld := ⟨(R.ETH_CNT_ERR n), 16, 16⟩
def ETH_CNT_ERR_LENGTH (n : Nat) : Fld := ⟨(R.ETH_CNT_ERR n), 0, 16⟩
def ETH_0_PTP_INC_NS : Fld := ⟨R.ETH_0_PTP_INC, 24, 8⟩
def ETH_0_PTP_INC_FRAC : Fld := ⟨R.ETH_0_PTP_INC, 0, 24⟩
def ETH_0_PTP_NS_NS : Fld := ⟨R.ETH_0_PTP_NS, 0, 30⟩
def ETH_0_PTP_SEC_HI_SEC : Fld := ⟨R.ETH_0_PTP_SEC_HI, 0, 16⟩
def UART_CTRL_EN (n : Nat) : Fld := ⟨(R.UART_CTRL n), 31, 1⟩
def UART_CTRL_RTSCTS (n : Nat) : Fld := ⟨(R.UART_CTRL n), 8, 1⟩
def UART_CTRL_STOP2 (n : Nat) : Fld := ⟨(R.UART_CTRL n), 4, 1⟩
def UART_CTRL_PARITY (n : Nat) : Fld := ⟨(R.UART_CTRL n), 2, 2⟩
def UART_CTRL_BITS7 (n : Nat) : Fld := ⟨(R.UART_CTRL n), 0, 1⟩
def UART_STATUS_RXLVL (n : Nat) : Fld := ⟨(R.UART_STATUS n), 24, 5⟩
def UART_STATUS_TXLVL (n : Nat) : Fld := ⟨(R.UART_STATUS n), 16, 5⟩
def UART_STATUS_IDLE (n : Nat) : Fld := ⟨(R.UART_STATUS n), 4, 1⟩
def UART_STATUS_OVR (n : Nat) : Fld := ⟨(R.UART_STATUS n), 3, 1⟩
def UART_STATUS_FERR (n : Nat) : Fld := ⟨(R.UART_STATUS n), 2, 1⟩
def UART_STATUS_PERR (n : Nat) : Fld := ⟨(R.UART_STATUS n), 1, 1⟩
def UART_STATUS_TXEMPTY (n : Nat) : Fld := ⟨(R.UART_STATUS n), 0, 1⟩
def UART_IE_IE (n : Nat) : Fld := ⟨(R.UART_IE n), 0, 5⟩
def UART_DATA_DATA (n : Nat) : Fld := ⟨(R.UART_DATA n), 0, 8⟩
def UART_BAUD_DIV (n : Nat) : Fld := ⟨(R.UART_BAUD n), 4, 16⟩
def UART_BAUD_FRAC (n : Nat) : Fld := ⟨(R.UART_BAUD n), 0, 4⟩
def UART_IDLE_CHARS (n : Nat) : Fld := ⟨(R.UART_IDLE n), 0, 8⟩
def SPI_CTRL_EN (n : Nat) : Fld := ⟨(R.SPI_CTRL n), 31, 1⟩
def SPI_CTRL_CS (n : Nat) : Fld := ⟨(R.SPI_CTRL n), 24, 2⟩
def SPI_CTRL_LSB (n : Nat) : Fld := ⟨(R.SPI_CTRL n), 16, 1⟩
def SPI_CTRL_BITS (n : Nat) : Fld := ⟨(R.SPI_CTRL n), 8, 5⟩
def SPI_CTRL_CPOL (n : Nat) : Fld := ⟨(R.SPI_CTRL n), 1, 1⟩
def SPI_CTRL_CPHA (n : Nat) : Fld := ⟨(R.SPI_CTRL n), 0, 1⟩
def SPI_STATUS_BUSY (n : Nat) : Fld := ⟨(R.SPI_STATUS n), 31, 1⟩
def SPI_STATUS_RXLVL (n : Nat) : Fld := ⟨(R.SPI_STATUS n), 24, 5⟩
def SPI_STATUS_TXLVL (n : Nat) : Fld := ⟨(R.SPI_STATUS n), 16, 5⟩
def SPI_STATUS_OVR (n : Nat) : Fld := ⟨(R.SPI_STATUS n), 1, 1⟩
def SPI_STATUS_DONE (n : Nat) : Fld := ⟨(R.SPI_STATUS n), 0, 1⟩
def SPI_IE_IE (n : Nat) : Fld := ⟨(R.SPI_IE n), 0, 2⟩
def SPI_CLK_DIV (n : Nat) : Fld := ⟨(R.SPI_CLK n), 0, 8⟩
def I2C_CTRL_EN (n : Nat) : Fld := ⟨(R.I2C_CTRL n), 31, 1⟩
def I2C_CTRL_FAST (n : Nat) : Fld := ⟨(R.I2C_CTRL n), 0, 1⟩
def I2C_STATUS_BUSY (n : Nat) : Fld := ⟨(R.I2C_STATUS n), 31, 1⟩
def I2C_STATUS_NACK (n : Nat) : Fld := ⟨(R.I2C_STATUS n), 3, 1⟩
def I2C_STATUS_ARBLOST (n : Nat) : Fld := ⟨(R.I2C_STATUS n), 2, 1⟩
def I2C_STATUS_TIMEOUT (n : Nat) : Fld := ⟨(R.I2C_STATUS n), 1, 1⟩
def I2C_STATUS_DONE (n : Nat) : Fld := ⟨(R.I2C_STATUS n), 0, 1⟩
def I2C_IE_IE (n : Nat) : Fld := ⟨(R.I2C_IE n), 0, 4⟩
def I2C_CMD_GO (n : Nat) : Fld := ⟨(R.I2C_CMD n), 31, 1⟩
def I2C_CMD_ADDR (n : Nat) : Fld := ⟨(R.I2C_CMD n), 8, 7⟩
def I2C_CMD_READ (n : Nat) : Fld := ⟨(R.I2C_CMD n), 7, 1⟩
def I2C_CMD_LEN (n : Nat) : Fld := ⟨(R.I2C_CMD n), 0, 5⟩
def I2C_DATA_DATA (n : Nat) : Fld := ⟨(R.I2C_DATA n), 0, 8⟩
def I2C_TOUT_TOUT (n : Nat) : Fld := ⟨(R.I2C_TOUT n), 0, 16⟩
def QSPI_CMD_GO : Fld := ⟨R.QSPI_CMD, 31, 1⟩
def QSPI_CMD_WRITE : Fld := ⟨R.QSPI_CMD, 30, 1⟩
def QSPI_CMD_QUAD : Fld := ⟨R.QSPI_CMD, 29, 1⟩
def QSPI_CMD_ADDRB : Fld := ⟨R.QSPI_CMD, 27, 2⟩
def QSPI_CMD_DUMMY : Fld := ⟨R.QSPI_CMD, 22, 5⟩
def QSPI_CMD_OPCODE : Fld := ⟨R.QSPI_CMD, 14, 8⟩
def QSPI_CMD_LEN : Fld := ⟨R.QSPI_CMD, 0, 9⟩
def QSPI_STATUS_BUSY : Fld := ⟨R.QSPI_STATUS, 31, 1⟩
def QSPI_STATUS_HELD : Fld := ⟨R.QSPI_STATUS, 30, 1⟩
def QSPI_STATUS_REFUSED : Fld := ⟨R.QSPI_STATUS, 1, 1⟩
def QSPI_STATUS_DONE : Fld := ⟨R.QSPI_STATUS, 0, 1⟩
def PRG_CTRL_TXEN : Fld := ⟨R.PRG_CTRL, 31, 1⟩
def PRG_CTRL_RXEN : Fld := ⟨R.PRG_CTRL, 30, 1⟩
def PRG_CTRL_LOSTEN : Fld := ⟨R.PRG_CTRL, 29, 1⟩
def PRG_STATUS_LOSTST : Fld := ⟨R.PRG_STATUS, 31, 1⟩
def PRG_STATUS_REGAIN : Fld := ⟨R.PRG_STATUS, 4, 1⟩
def PRG_STATUS_LOST : Fld := ⟨R.PRG_STATUS, 3, 1⟩
def PRG_STATUS_STALL : Fld := ⟨R.PRG_STATUS, 2, 1⟩
def PRG_STATUS_CRCERR : Fld := ⟨R.PRG_STATUS, 1, 1⟩
def PRG_STATUS_RXVALID : Fld := ⟨R.PRG_STATUS, 0, 1⟩
def PRG_IE_IE : Fld := ⟨R.PRG_IE, 0, 5⟩
def PRG_TIMEOUT_MS : Fld := ⟨R.PRG_TIMEOUT, 0, 8⟩
def PRG_LOSTSEL_HEADS : Fld := ⟨R.PRG_LOSTSEL, 16, 4⟩
def PRG_LOSTSEL_LAYER : Fld := ⟨R.PRG_LOSTSEL, 0, 3⟩
def PRG_TXSEQ_SEQ : Fld := ⟨R.PRG_TXSEQ, 0, 16⟩
def PRG_CH_RXSEQ_SEQ (c : Nat) : Fld := ⟨(R.PRG_CH_RXSEQ c), 0, 16⟩
def PRG_CH_ERRCNT_CNT (c : Nat) : Fld := ⟨(R.PRG_CH_ERRCNT c), 0, 16⟩
def PIN_P_IN_BITS (k : Nat) : Fld := ⟨(R.PIN_P_IN k), 0, 24⟩
def PIN_P_OUT_BITS (k : Nat) : Fld := ⟨(R.PIN_P_OUT k), 0, 24⟩
def PIN_P_SET_BITS (k : Nat) : Fld := ⟨(R.PIN_P_SET k), 0, 24⟩
def PIN_P_CLR_BITS (k : Nat) : Fld := ⟨(R.PIN_P_CLR k), 0, 24⟩
def PIN_P_TGL_BITS (k : Nat) : Fld := ⟨(R.PIN_P_TGL k), 0, 24⟩
def PIN_P_OE_BITS (k : Nat) : Fld := ⟨(R.PIN_P_OE k), 0, 24⟩
def PIN_EVT_STATUS_BITS : Fld := ⟨R.PIN_EVT_STATUS, 0, 8⟩
def PIN_EVT_IE_BITS : Fld := ⟨R.PIN_EVT_IE, 0, 8⟩
def PIN_BANK_STATUS_BANKS : Fld := ⟨R.PIN_BANK_STATUS, 0, 8⟩
def PIN_EVT_EN (n : Nat) : Fld := ⟨(R.PIN_EVT n), 31, 1⟩
def PIN_EVT_EDGE (n : Nat) : Fld := ⟨(R.PIN_EVT n), 4, 2⟩
def PIN_EVT_SEL (n : Nat) : Fld := ⟨(R.PIN_EVT n), 0, 4⟩
def PIN_SEL_EN (f : Nat) : Fld := ⟨(R.PIN_SEL f), 31, 1⟩
def PIN_SEL_PIN (f : Nat) : Fld := ⟨(R.PIN_SEL f), 0, 7⟩
def PIN_CFG_ANA (p : Nat) : Fld := ⟨(R.PIN_CFG p), 15, 1⟩
def PIN_CFG_DRIVE (p : Nat) : Fld := ⟨(R.PIN_CFG p), 10, 2⟩
def PIN_CFG_OD (p : Nat) : Fld := ⟨(R.PIN_CFG p), 8, 1⟩
def PIN_CFG_PULL (p : Nat) : Fld := ⟨(R.PIN_CFG p), 4, 2⟩
def PIN_CFG_HYST (p : Nat) : Fld := ⟨(R.PIN_CFG p), 2, 1⟩
def DBG_CTRL_ATTACH : Fld := ⟨R.DBG_CTRL, 31, 1⟩
def DBG_CTRL_SIDEFX : Fld := ⟨R.DBG_CTRL, 30, 1⟩
def DBG_CTRL_BRKHALT : Fld := ⟨R.DBG_CTRL, 29, 1⟩
def DBG_CTRL_RSTHALT : Fld := ⟨R.DBG_CTRL, 28, 1⟩
def DBG_CTRL_EVSCOPE : Fld := ⟨R.DBG_CTRL, 26, 2⟩
def DBG_CTRL_STEPIE : Fld := ⟨R.DBG_CTRL, 25, 1⟩
def DBG_CTRL_SYSRST : Fld := ⟨R.DBG_CTRL, 24, 1⟩
def DBG_CTRL_CHIE : Fld := ⟨R.DBG_CTRL, 23, 1⟩
def DBG_STATUS_ATTACHED : Fld := ⟨R.DBG_STATUS, 31, 1⟩
def DBG_STATUS_CCHALT : Fld := ⟨R.DBG_STATUS, 30, 1⟩
def DBG_STATUS_LOCKUP : Fld := ⟨R.DBG_STATUS, 29, 1⟩
def DBG_STATUS_EMUL : Fld := ⟨R.DBG_STATUS, 28, 1⟩
def DBG_STATUS_CCREASON : Fld := ⟨R.DBG_STATUS, 24, 4⟩
def DBG_STATUS_OVERRUN : Fld := ⟨R.DBG_STATUS, 4, 1⟩
def DBG_STATUS_CMPEV : Fld := ⟨R.DBG_STATUS, 3, 1⟩
def DBG_STATUS_ACCERR : Fld := ⟨R.DBG_STATUS, 2, 1⟩
def DBG_STATUS_UNITHALT : Fld := ⟨R.DBG_STATUS, 0, 1⟩
def DBG_CMD_CMD : Fld := ⟨R.DBG_CMD, 28, 4⟩
def DBG_CMD_CC : Fld := ⟨R.DBG_CMD, 16, 1⟩
def DBG_CMD_UNIT : Fld := ⟨R.DBG_CMD, 0, 12⟩
def DBG_CMD_STATUS_BUSY : Fld := ⟨R.DBG_CMD_STATUS, 31, 1⟩
def DBG_CMD_STATUS_EVREASON : Fld := ⟨R.DBG_CMD_STATUS, 24, 4⟩
def DBG_CMD_STATUS_EVCMP : Fld := ⟨R.DBG_CMD_STATUS, 20, 2⟩
def DBG_CMD_STATUS_RESULT : Fld := ⟨R.DBG_CMD_STATUS, 16, 4⟩
def DBG_CMD_STATUS_EVENGINE : Fld := ⟨R.DBG_CMD_STATUS, 0, 10⟩
def DBG_REG_IDX_CC : Fld := ⟨R.DBG_REG_IDX, 31, 1⟩
def DBG_REG_IDX_SPECIAL : Fld := ⟨R.DBG_REG_IDX, 30, 1⟩
def DBG_REG_IDX_ENGINE : Fld := ⟨R.DBG_REG_IDX, 16, 10⟩
def DBG_REG_IDX_NUM : Fld := ⟨R.DBG_REG_IDX, 0, 5⟩
def DBG_MEM_CTRL_READ : Fld := ⟨R.DBG_MEM_CTRL, 31, 1⟩
def DBG_MEM_CTRL_BUSY : Fld := ⟨R.DBG_MEM_CTRL, 30, 1⟩
def DBG_MEM_CTRL_ECC : Fld := ⟨R.DBG_MEM_CTRL, 29, 1⟩
def DBG_MEM_CTRL_AINC : Fld := ⟨R.DBG_MEM_CTRL, 28, 1⟩
def DBG_MEM_CTRL_SPACE : Fld := ⟨R.DBG_MEM_CTRL, 16, 2⟩
def DBG_MEM_CTRL_ENGINE : Fld := ⟨R.DBG_MEM_CTRL, 0, 10⟩
def DBG_MEM_ADDR_ADDR : Fld := ⟨R.DBG_MEM_ADDR, 2, 30⟩
def DBG_FREEZE_ADC : Fld := ⟨R.DBG_FREEZE, 6, 1⟩
def DBG_FREEZE_SER : Fld := ⟨R.DBG_FREEZE, 5, 1⟩
def DBG_FREEZE_ETH : Fld := ⟨R.DBG_FREEZE, 4, 1⟩
def DBG_FREEZE_AUD : Fld := ⟨R.DBG_FREEZE, 3, 1⟩
def DBG_FREEZE_CAM : Fld := ⟨R.DBG_FREEZE, 2, 1⟩
def DBG_FREEZE_BLIT : Fld := ⟨R.DBG_FREEZE, 1, 1⟩
def DBG_FREEZE_DMA : Fld := ⟨R.DBG_FREEZE, 0, 1⟩
def DBG_CHAN_STATUS_C2DOVR : Fld := ⟨R.DBG_CHAN_STATUS, 3, 1⟩
def DBG_CHAN_STATUS_D2COVR : Fld := ⟨R.DBG_CHAN_STATUS, 2, 1⟩
def DBG_CHAN_STATUS_C2DFULL : Fld := ⟨R.DBG_CHAN_STATUS, 1, 1⟩
def DBG_CHAN_STATUS_D2CFULL : Fld := ⟨R.DBG_CHAN_STATUS, 0, 1⟩
def DBG_HALT_BITS (k : Nat) : Fld := ⟨(R.DBG_HALT k), 0, 32⟩
def DBG_PATCH_ADDR_ADDR (i : Nat) : Fld := ⟨(R.DBG_PATCH_ADDR i), 2, 30⟩
def DBG_PATCH_ADDR_EN (i : Nat) : Fld := ⟨(R.DBG_PATCH_ADDR i), 0, 1⟩
def DBG_CMP_CTRL_EN (k : Nat) : Fld := ⟨(R.DBG_CMP_CTRL k), 31, 1⟩
def DBG_CMP_CTRL_LINK (k : Nat) : Fld := ⟨(R.DBG_CMP_CTRL k), 30, 1⟩
def DBG_CMP_CTRL_ACTION (k : Nat) : Fld := ⟨(R.DBG_CMP_CTRL k), 29, 1⟩
def DBG_CMP_CTRL_VALEN (k : Nat) : Fld := ⟨(R.DBG_CMP_CTRL k), 28, 1⟩
def DBG_CMP_CTRL_CTXEN (k : Nat) : Fld := ⟨(R.DBG_CMP_CTRL k), 27, 1⟩
def DBG_CMP_CTRL_WHO (k : Nat) : Fld := ⟨(R.DBG_CMP_CTRL k), 25, 2⟩
def DBG_CMP_CTRL_FETCH (k : Nat) : Fld := ⟨(R.DBG_CMP_CTRL k), 22, 1⟩
def DBG_CMP_CTRL_LOAD (k : Nat) : Fld := ⟨(R.DBG_CMP_CTRL k), 21, 1⟩
def DBG_CMP_CTRL_STORE (k : Nat) : Fld := ⟨(R.DBG_CMP_CTRL k), 20, 1⟩
def DBG_CMP_CTRL_CTX (k : Nat) : Fld := ⟨(R.DBG_CMP_CTRL k), 0, 12⟩
def DBG_FUSE_CTRL_KEY : Fld := ⟨R.DBG_FUSE_CTRL, 24, 8⟩
def DBG_FUSE_CTRL_AUTHREQ : Fld := ⟨R.DBG_FUSE_CTRL, 1, 1⟩
def DBG_FUSE_CTRL_KEYHASH : Fld := ⟨R.DBG_FUSE_CTRL, 0, 1⟩
def DBG_FUSE_STATUS_BUSY : Fld := ⟨R.DBG_FUSE_STATUS, 31, 1⟩
def DBG_FUSE_STATUS_REFUSED : Fld := ⟨R.DBG_FUSE_STATUS, 2, 1⟩
def DBG_FUSE_STATUS_FAIL : Fld := ⟨R.DBG_FUSE_STATUS, 1, 1⟩
def DBG_FUSE_STATUS_DONE : Fld := ⟨R.DBG_FUSE_STATUS, 0, 1⟩
end F

def rowsARRAY_0 : List RegRow := [
  ⟨0x40020000, [], 0x3, 0x0, 0x0, 0x3⟩,
  ⟨0x40020004, [], 0x0, 0x3, 0x0, 0x0⟩,
  ⟨0x40020008, [], 0x0, 0x80000000, 0x0, 0x0⟩,
  ⟨0x4002000C, [], 0x0, 0x0, 0x0, 0x0⟩,
  ⟨0x40020010, [], 0x0, 0x0, 0x0, 0x0⟩,
  ⟨0x40020014, [], 0x0, 0x0, 0x0, 0x0⟩,
  ⟨0x40020018, [], 0x0, 0x0, 0x0, 0x0⟩,
  ⟨0x40020040, [(32, 0x4)], 0x0, 0x0, 0x0, 0x0⟩,
  ⟨0x400200C0, [(32, 0x4)], 0x0, 0x0, 0x0, 0x0⟩,
  ⟨0x40020200, [(16, 0x10)], 0x0, 0xFF, 0x0, 0x0⟩,
  ⟨0x40020204, [(16, 0x10)], 0x3F, 0x0, 0x0, 0x0⟩,
  ⟨0x40020400, [(32, 0x4)], 0x0, 0xFFFFFFFF, 0x0, 0x0⟩]
def rowsARRAY_1 : List RegRow := [
  ⟨0x40020500, [(16, 0x4)], 0x0, 0x0, 0x0, 0x0⟩,
  ⟨0x40020600, [(4, 0x8)], 0xF, 0x0, 0x0, 0x2⟩,
  ⟨0x40020604, [(4, 0x8)], 0x0, 0x0, 0x0, 0x0⟩]
def rowsARRAY : List RegRow := rowsARRAY_0 ++ rowsARRAY_1
def rowsCFG : List RegRow := [
  ⟨0x40010000, [], 0x0, 0x0, 0x0, 0x0⟩,
  ⟨0x40010004, [], 0x0, 0x0, 0x0, 0x0⟩,
  ⟨0x40010008, [], 0x0, 0x0, 0x0, 0x0⟩,
  ⟨0x4001000C, [], 0x0, 0x0, 0x0, 0x0⟩,
  ⟨0x40010010, [], 0x1, 0x0, 0x0, 0x0⟩,
  ⟨0x40010014, [], 0x7, 0x0, 0x0, 0x0⟩,
  ⟨0x40010018, [], 0x0, 0x60000000, 0x0, 0x0⟩,
  ⟨0x4001001C, [], 0x0, 0x0, 0x0, 0x0⟩,
  ⟨0x40010040, [(8, 0x4)], 0x0, 0x0, 0x0, 0x0⟩]
def rowsHEAD_0 : List RegRow := [
  ⟨0x40100000, [(4, 0x10000)], 0x30F, 0x0, 0x0, 0x202⟩,
  ⟨0x40100004, [(4, 0x10000)], 0x0, 0xFFFFFFF, 0x0, 0x0⟩,
  ⟨0x40100008, [(4, 0x10000)], 0xFFFFFFF, 0x0, 0x0, 0x0⟩,
  ⟨0x4010000C, [(4, 0x10000)], 0xFFFFFF, 0x0, 0x0, 0x0⟩,
  ⟨0x40100010, [(4, 0x10000)], 0x0, 0x0, 0x0, 0x0⟩,
  ⟨0x40100014, [(4, 0x10000)], 0x0, 0x0, 0xFFFFFFFF, 0x0⟩,
  ⟨0x40100018, [(4, 0x10000)], 0x0, 0x0, 0x0, 0x0⟩,
  ⟨0x40100100, [(4, 0x10000), (8, 0x40)], 0x80000003, 0x0, 0x0, 0x1⟩,
  ⟨0x40100104, [(4, 0x10000), (8, 0x40)], 0xC000013F, 0x0, 0x0, 0x0⟩,
  ⟨0x40100108, [(4, 0x10000), (8, 0x40)], 0xFFFFFFFF, 0x0, 0x0, 0x0⟩,
  ⟨0x4010010C, [(4, 0x10000), (8, 0x40)], 0xFFFFFFFF, 0x0, 0x0, 0x0⟩,
  ⟨0x40100110, [(4, 0x10000), (8, 0x40)], 0xFFFFFFFF, 0x0, 0x0, 0x0⟩]
def rowsHEAD_1 : List RegRow := [
  ⟨0x40100114, [(4, 0x10000), (8, 0x40)], 0xFF, 0x0, 0x0, 0xFF⟩,
  ⟨0x40100118, [(4, 0x10000), (8, 0x40)], 0xFFFFFF, 0x0, 0x0, 0x0⟩,
  ⟨0x4010011C, [(4, 0x10000), (8, 0x40)], 0xFFFFFFFF, 0x0, 0x0, 0x0⟩,
  ⟨0x40100120, [(4, 0x10000), (8, 0x40)], 0xFFFFFFFF, 0x0, 0x0, 0x0⟩,
  ⟨0x40100124, [(4, 0x10000), (8, 0x40)], 0xFFFFFFFF, 0x0, 0x0, 0x0⟩,
  ⟨0x40100128, [(4, 0x10000), (8, 0x40)], 0xFFFFFFFF, 0x0, 0x0, 0x0⟩,
  ⟨0x4010012C, [(4, 0x10000), (8, 0x40)], 0xFFFFFFFF, 0x0, 0x0, 0x0⟩,
  ⟨0x40100130, [(4, 0x10000), (8, 0x40)], 0x0, 0x0, 0x0, 0x0⟩,
  ⟨0x40100134, [(4, 0x10000), (8, 0x40)], 0x0, 0x0, 0x0, 0x0⟩,
  ⟨0x40100138, [(4, 0x10000), (8, 0x40)], 0x0, 0x0, 0x0, 0x0⟩,
  ⟨0x40104000, [(4, 0x10000), (8, 0x400), (256, 0x4)], 0xFFFFFFFF, 0x0, 0x0, 0x0⟩,
  ⟨0x40100300, [(4, 0x10000)], 0xF100000C, 0x0, 0x0, 0x0⟩]
def rowsHEAD_2 : List RegRow := [
  ⟨0x40100304, [(4, 0x10000)], 0x0, 0x0, 0x0, 0x0⟩,
  ⟨0x40100308, [(4, 0x10000)], 0x0, 0x3FFF, 0x0, 0x0⟩,
  ⟨0x4010030C, [(4, 0x10000)], 0x3FFF, 0x0, 0x0, 0x0⟩,
  ⟨0x40100310, [(4, 0x10000)], 0xFFF0FFF, 0x0, 0x0, 0x0⟩,
  ⟨0x40100314, [(4, 0x10000)], 0xFFF0FFF, 0x0, 0x0, 0x0⟩,
  ⟨0x40100318, [(4, 0x10000)], 0xFFF0FFF, 0x0, 0x0, 0x0⟩,
  ⟨0x4010031C, [(4, 0x10000)], 0xFFF0FFF, 0x0, 0x0, 0x0⟩,
  ⟨0x40100320, [(4, 0x10000)], 0x7, 0x0, 0x0, 0x0⟩,
  ⟨0x40100324, [(4, 0x10000)], 0x7FFFFF, 0x0, 0x0, 0x0⟩,
  ⟨0x40100328, [(4, 0x10000)], 0x7F, 0x0, 0x0, 0x0⟩,
  ⟨0x4010032C, [(4, 0x10000)], 0x33113, 0x0, 0x0, 0x0⟩,
  ⟨0x40100330, [(4, 0x10000)], 0x0, 0x0, 0x0, 0x0⟩]
def rowsHEAD_3 : List RegRow := [
  ⟨0x40100334, [(4, 0x10000)], 0x0, 0x0, 0x0, 0x0⟩,
  ⟨0x40100338, [(4, 0x10000)], 0x8000FFFF, 0x0, 0x0, 0x0⟩,
  ⟨0x4010033C, [(4, 0x10000)], 0x0, 0x0, 0xFFFF, 0x0⟩,
  ⟨0x40100340, [(4, 0x10000)], 0x0, 0x0, 0x0, 0x0⟩,
  ⟨0x40100344, [(4, 0x10000)], 0xF, 0x0, 0x0, 0x3⟩,
  ⟨0x40100348, [(4, 0x10000)], 0x0, 0x0, 0x0, 0x0⟩,
  ⟨0x40100400, [(4, 0x10000)], 0x107FF, 0x0, 0x0, 0x0⟩,
  ⟨0x40100404, [(4, 0x10000)], 0x0, 0x0, 0x0, 0x0⟩,
  ⟨0x40100500, [(4, 0x10000)], 0xEF000000, 0x0, 0x0, 0x3000000⟩,
  ⟨0x40100504, [(4, 0x10000)], 0x0, 0x5F000000, 0x0, 0x0⟩,
  ⟨0x40100508, [(4, 0x10000)], 0x7F000000, 0x0, 0x0, 0x0⟩,
  ⟨0x4010050C, [(4, 0x10000)], 0x0, 0xFFFF, 0x0, 0x0⟩]
def rowsHEAD_4 : List RegRow := [
  ⟨0x40100510, [(4, 0x10000)], 0x1FF, 0x0, 0x0, 0xFA⟩,
  ⟨0x40100514, [(4, 0x10000)], 0x0, 0x0, 0xFFFF, 0x0⟩,
  ⟨0x40100518, [(4, 0x10000)], 0x0, 0x0, 0x0, 0x0⟩,
  ⟨0x40100600, [(4, 0x10000), (16, 0x20)], 0xFFF0FFF, 0x0, 0x0, 0x0⟩,
  ⟨0x40100604, [(4, 0x10000), (16, 0x20)], 0xFFF0FFF, 0x0, 0x0, 0x0⟩,
  ⟨0x40100608, [(4, 0x10000), (16, 0x20)], 0xF0F00FFF, 0x0, 0x0, 0x0⟩,
  ⟨0x4010060C, [(4, 0x10000), (16, 0x20)], 0xFFFFFFFF, 0x0, 0x0, 0x0⟩,
  ⟨0x40100610, [(4, 0x10000), (16, 0x20)], 0x0, 0x0, 0x0, 0x0⟩,
  ⟨0x40100614, [(4, 0x10000), (16, 0x20)], 0x0, 0x0, 0x0, 0x0⟩,
  ⟨0x40100618, [(4, 0x10000), (16, 0x20)], 0x0, 0x0, 0x0, 0x0⟩,
  ⟨0x4010061C, [(4, 0x10000), (16, 0x20)], 0x0, 0x0, 0x0, 0xF00000⟩]
def rowsHEAD : List RegRow := rowsHEAD_0 ++ rowsHEAD_1 ++ rowsHEAD_2 ++ rowsHEAD_3 ++ rowsHEAD_4
def rowsSYS_0 : List RegRow := [
  ⟨0x40000000, [], 0x0, 0x0, 0x0, 0x1⟩,
  ⟨0x40000004, [], 0x0, 0x0, 0x0, 0x0⟩,
  ⟨0x40000008, [], 0x0, 0x0, 0x0, 0x0⟩,
  ⟨0x4000000C, [], 0x0, 0x0, 0x0, 0x0⟩,
  ⟨0x40000010, [], 0x0, 0x0, 0x0, 0x0⟩,
  ⟨0x40000014, [], 0x0, 0x30F, 0x0, 0x0⟩,
  ⟨0x40000018, [], 0x30F, 0x0, 0x0, 0x0⟩,
  ⟨0x4000001C, [], 0x0, 0x0, 0x0, 0x0⟩,
  ⟨0x40000020, [], 0x0, 0x800000FF, 0x0, 0x1⟩,
  ⟨0x40000024, [], 0x0, 0x0, 0x0, 0x0⟩,
  ⟨0x40000030, [], 0x80000F3F, 0x0, 0x0, 0x80000414⟩,
  ⟨0x40000034, [], 0xFFFF, 0x0, 0x0, 0xFFFF⟩]
def rowsSYS_1 : List RegRow := [
  ⟨0x40000038, [], 0xFFFFFFFC, 0x0, 0x0, 0x0⟩,
  ⟨0x4000003C, [], 0xFFFFFFFC, 0x0, 0x0, 0x0⟩,
  ⟨0x40000040, [], 0x0, 0x0, 0x0, 0x0⟩,
  ⟨0x40000050, [], 0xFFFFF, 0x0, 0x0, 0xA7A6E⟩,
  ⟨0x40000054, [], 0x0, 0x0, 0x0, 0x0⟩,
  ⟨0x40000060, [], 0x0, 0x0, 0x0, 0x0⟩,
  ⟨0x40000064, [], 0x3FF, 0x0, 0x0, 0xC8⟩,
  ⟨0x40000070, [], 0xF011F, 0x0, 0x0, 0x0⟩,
  ⟨0x40000074, [], 0xFFFFFFFF, 0x0, 0x0, 0x0⟩,
  ⟨0x40000078, [], 0x0, 0x0, 0x0, 0x0⟩,
  ⟨0x40000080, [], 0x0, 0x0, 0x0, 0x0⟩]
def rowsSYS : List RegRow := rowsSYS_0 ++ rowsSYS_1
def rowsSTORE_0 : List RegRow := [
  ⟨0x40030000, [], 0x0, 0x1FF, 0x0, 0x0⟩,
  ⟨0x40030004, [], 0x1FF, 0x0, 0x0, 0x0⟩,
  ⟨0x40030010, [], 0x0, 0x80000000, 0x0, 0x0⟩,
  ⟨0x40030014, [], 0x0, 0x0, 0x0, 0x0⟩,
  ⟨0x40030018, [], 0xFFFF, 0x0, 0x0, 0x400⟩,
  ⟨0x40030020, [], 0xFFFFFFFF, 0x0, 0x0, 0x0⟩,
  ⟨0x40030024, [], 0x0, 0x0, 0x0, 0x0⟩,
  ⟨0x40030028, [], 0x0, 0x0, 0x0, 0x0⟩,
  ⟨0x40030040, [(16, 0x4)], 0x3F, 0x0, 0x0, 0x10⟩,
  ⟨0x40030100, [(8, 0x4)], 0x0, 0x0, 0xFFFFFFFF, 0x0⟩,
  ⟨0x40030140, [], 0x0, 0x80000000, 0x0, 0x0⟩,
  ⟨0x40030144, [], 0x0, 0x0, 0x0, 0x0⟩]
def rowsSTORE_1 : List RegRow := [
  ⟨0x40030148, [], 0x80001F0F, 0x0, 0x0, 0x0⟩,
  ⟨0x40030180, [], 0x2, 0x0, 0x0, 0x0⟩,
  ⟨0x40030184, [], 0xFFFFFFFC, 0x0, 0x0, 0x10000000⟩,
  ⟨0x40030188, [], 0xFFFFFFFC, 0x0, 0x0, 0x10000000⟩,
  ⟨0x4003018C, [], 0x0, 0x78000000, 0x0, 0x0⟩,
  ⟨0x40030190, [], 0x0, 0x0, 0x0, 0x0⟩,
  ⟨0x40030194, [], 0x0, 0x0, 0x0, 0x0⟩,
  ⟨0x40030198, [], 0x0, 0x0, 0x0, 0x0⟩,
  ⟨0x4003019C, [], 0x0, 0x0, 0x0, 0x0⟩,
  ⟨0x400301C0, [], 0x10F, 0x0, 0x0, 0x0⟩,
  ⟨0x400301C4, [], 0x0, 0x70000000, 0x0, 0x0⟩,
  ⟨0x400301C8, [], 0x0, 0x0, 0x0, 0x0⟩]
def rowsSTORE : List RegRow := rowsSTORE_0 ++ rowsSTORE_1
def rowsBLIT : List RegRow := [
  ⟨0x40050000, [], 0x0, 0x0, 0x0, 0x0⟩,
  ⟨0x40050004, [], 0x0, 0x1F, 0x0, 0x0⟩,
  ⟨0x40050008, [], 0xF, 0x0, 0x0, 0x0⟩,
  ⟨0x4005000C, [], 0xFFFFFFE0, 0x0, 0x0, 0x0⟩,
  ⟨0x40050010, [], 0x0, 0x0, 0x0, 0x0⟩,
  ⟨0x40050014, [], 0x0, 0x0, 0x0, 0x0⟩,
  ⟨0x40050018, [], 0x0, 0x0, 0x0, 0x0⟩,
  ⟨0x4005001C, [], 0x300FFFFF, 0x0, 0x0, 0x20000⟩,
  ⟨0x40050020, [], 0x0, 0x0, 0x0, 0x0⟩,
  ⟨0x40050400, [(256, 0x4)], 0xFFFFFFFF, 0x0, 0x0, 0x0⟩]
def rowsDMA : List RegRow := [
  ⟨0x40060000, [], 0x0, 0x0, 0x0, 0x0⟩,
  ⟨0x40060100, [(8, 0x40)], 0x103F0333, 0x0, 0x0, 0x0⟩,
  ⟨0x40060104, [(8, 0x40)], 0x0, 0xF, 0x0, 0x0⟩,
  ⟨0x40060108, [(8, 0x40)], 0xFFFFFFFF, 0x0, 0x0, 0x0⟩,
  ⟨0x4006010C, [(8, 0x40)], 0xFFFFFFFF, 0x0, 0x0, 0x0⟩,
  ⟨0x40060110, [(8, 0x40)], 0xFFFFFFFF, 0x0, 0x0, 0x0⟩,
  ⟨0x40060114, [(8, 0x40)], 0xFFFF, 0x0, 0x0, 0x0⟩,
  ⟨0x40060118, [(8, 0x40), (3, 0x4)], 0xFFFFFFFF, 0x0, 0x0, 0x0⟩,
  ⟨0x40060124, [(8, 0x40), (3, 0x4)], 0xFFFFFFFF, 0x0, 0x0, 0x0⟩,
  ⟨0x40060130, [(8, 0x40)], 0x0, 0x0, 0x0, 0x0⟩,
  ⟨0x40060134, [(8, 0x40)], 0x0, 0x0, 0x0, 0x0⟩,
  ⟨0x40060138, [(8, 0x40)], 0x0, 0x0, 0x0, 0x0⟩]
def rowsCAM_0 : List RegRow := [
  ⟨0x40070000, [(2, 0x100)], 0x80030003, 0x0, 0x0, 0x0⟩,
  ⟨0x40070004, [(2, 0x100)], 0x0, 0xF, 0x0, 0x0⟩,
  ⟨0x40070008, [(2, 0x100)], 0x33F0007, 0x0, 0x0, 0x0⟩,
  ⟨0x4007000C, [(2, 0x100)], 0x300FF, 0x0, 0x0, 0x0⟩,
  ⟨0x40070010, [(2, 0x100)], 0x1FFF1FFF, 0x0, 0x0, 0x0⟩,
  ⟨0x40070014, [(2, 0x100)], 0xFFFFFFFF, 0x0, 0x0, 0x0⟩,
  ⟨0x40070018, [(2, 0x100)], 0xF, 0x0, 0x0, 0x0⟩,
  ⟨0x4007001C, [(2, 0x100)], 0x0, 0x0, 0x0, 0x0⟩,
  ⟨0x40070020, [(2, 0x100)], 0x0, 0x0, 0x0, 0x0⟩,
  ⟨0x40070024, [(2, 0x100)], 0x0, 0x0, 0xFFFFFFFF, 0x0⟩,
  ⟨0x40070028, [(2, 0x100)], 0x0, 0x0, 0x0, 0x0⟩,
  ⟨0x4007002C, [(2, 0x100)], 0x0, 0x0, 0x0, 0x0⟩]
def rowsCAM_1 : List RegRow := [
  ⟨0x40070040, [(2, 0x100), (4, 0x10)], 0xFFFFFFFF, 0x0, 0x0, 0x0⟩,
  ⟨0x40070044, [(2, 0x100), (4, 0x10)], 0xFFFFFFFF, 0x0, 0x0, 0x0⟩,
  ⟨0x40070048, [(2, 0x100), (4, 0x10)], 0xFFFFFFFF, 0x0, 0x0, 0x0⟩]
def rowsCAM : List RegRow := rowsCAM_0 ++ rowsCAM_1
def rowsAUD_0 : List RegRow := [
  ⟨0x40080000, [], 0x80010000, 0x0, 0x0, 0x0⟩,
  ⟨0x40080004, [], 0x0, 0x3CFF, 0x0, 0x0⟩,
  ⟨0x40080008, [], 0x3EFF, 0x0, 0x0, 0x0⟩,
  ⟨0x4008000C, [], 0x0, 0xFFFFFFFF, 0x0, 0x0⟩,
  ⟨0x40080010, [], 0x0, 0x0, 0x0, 0x0⟩,
  ⟨0x40080014, [], 0x0, 0x0, 0x0, 0x0⟩,
  ⟨0x40080020, [(3, 0x4)], 0x11113, 0x0, 0x0, 0x100⟩,
  ⟨0x40080040, [(16, 0x4)], 0xFFFF000F, 0x0, 0x0, 0x80000000⟩,
  ⟨0x40080100, [], 0xE, 0x0, 0x0, 0x0⟩,
  ⟨0x40080104, [], 0x7FFFFF, 0x0, 0x0, 0x0⟩,
  ⟨0x40080108, [], 0xFFFFFFFF, 0x0, 0x0, 0x80000000⟩,
  ⟨0x4008010C, [], 0xFFFF, 0x0, 0x0, 0x0⟩]
def rowsAUD_1 : List RegRow := [
  ⟨0x40080200, [(4, 0x40)], 0x7, 0x0, 0x0, 0x0⟩,
  ⟨0x40080204, [(4, 0x40)], 0xFFFF, 0x0, 0x0, 0x8000⟩,
  ⟨0x40080208, [(4, 0x40)], 0xFF7FFFFF, 0x0, 0x0, 0x7FFFFF⟩,
  ⟨0x40080210, [(4, 0x40), (10, 0x4)], 0xFFFFFFFF, 0x0, 0x0, 0x0⟩,
  ⟨0x40081000, [(38, 0x80)], 0x830700FF, 0x0, 0x0, 0x0⟩,
  ⟨0x40081004, [(38, 0x80)], 0xFFFFFFFF, 0x0, 0x0, 0x0⟩,
  ⟨0x40081008, [(38, 0x80)], 0xFFFF, 0x0, 0x0, 0x0⟩,
  ⟨0x4008100C, [(38, 0x80)], 0xFFFFFFFF, 0x0, 0x0, 0x0⟩,
  ⟨0x40081010, [(38, 0x80)], 0xFFFFFF, 0x0, 0x0, 0x0⟩,
  ⟨0x40081014, [(38, 0x80)], 0x80FFFFFF, 0x0, 0x0, 0x0⟩,
  ⟨0x40081018, [(38, 0x80)], 0xFFFFFF, 0x0, 0x0, 0x0⟩,
  ⟨0x4008101C, [(38, 0x80)], 0x0, 0x0, 0x0, 0x0⟩]
def rowsAUD_2 : List RegRow := [
  ⟨0x40081040, [(38, 0x80), (16, 0x4)], 0xFFFFFFFF, 0x0, 0x0, 0x0⟩]
def rowsAUD : List RegRow := rowsAUD_0 ++ rowsAUD_1 ++ rowsAUD_2
def rowsICU : List RegRow := [
  ⟨0x40090000, [], 0x0, 0x0, 0x0, 0x0⟩,
  ⟨0x40090004, [], 0x0, 0x0, 0x0, 0x80000000⟩,
  ⟨0x40090008, [], 0x0, 0x1, 0x0, 0x0⟩,
  ⟨0x4009000C, [], 0x0, 0x0, 0x0, 0x0⟩,
  ⟨0x40090040, [(4, 0x4)], 0x0, 0xFFFFFFFF, 0x0, 0x0⟩,
  ⟨0x40090050, [(4, 0x4)], 0x0, 0x0, 0x0, 0x0⟩,
  ⟨0x40090060, [(4, 0x4)], 0xFFFFFFFF, 0x0, 0x0, 0x0⟩,
  ⟨0x40090070, [(4, 0x4)], 0x0, 0x0, 0x0, 0x0⟩,
  ⟨0x40090100, [(128, 0x4)], 0xF0F, 0x0, 0x0, 0x0⟩,
  ⟨0x40090200, [(16, 0x4)], 0x0, 0x0, 0x0, 0x0⟩]
def rowsTIM : List RegRow := [
  ⟨0x400A0000, [(8, 0x100)], 0xE03F3F00, 0x0, 0x0, 0x3F3F00⟩,
  ⟨0x400A0004, [(8, 0x100)], 0x0, 0x10F, 0x0, 0x0⟩,
  ⟨0x400A0008, [(8, 0x100)], 0x10F, 0x0, 0x0, 0x0⟩,
  ⟨0x400A000C, [(8, 0x100)], 0xFFFF, 0x0, 0x0, 0x0⟩,
  ⟨0x400A0010, [(8, 0x100)], 0xFFFFFFFF, 0x0, 0x0, 0xFFFFFFFF⟩,
  ⟨0x400A0014, [(8, 0x100)], 0xFFFFFFFF, 0x0, 0x0, 0x0⟩,
  ⟨0x400A0018, [(8, 0x100)], 0x0, 0xCCCC, 0x0, 0x0⟩,
  ⟨0x400A0040, [(8, 0x100), (4, 0x10)], 0x333, 0x0, 0x0, 0x0⟩,
  ⟨0x400A0044, [(8, 0x100), (4, 0x10)], 0xFFFFFFFF, 0x0, 0x0, 0x0⟩,
  ⟨0x400A0048, [(8, 0x100), (4, 0x10)], 0x0, 0x0, 0x0, 0x0⟩,
  ⟨0x400A004C, [(8, 0x100), (4, 0x10)], 0x0, 0x0, 0x0, 0x0⟩]
def rowsWDT : List RegRow := [
  ⟨0x400B0000, [], 0xC0000000, 0x0, 0x0, 0x0⟩,
  ⟨0x400B0004, [], 0x0, 0x3, 0x0, 0x0⟩,
  ⟨0x400B0008, [], 0xFFFFFF, 0x0, 0x0, 0x0⟩,
  ⟨0x400B000C, [], 0xFFFFFF, 0x0, 0x0, 0x6000⟩,
  ⟨0x400B0010, [], 0xFFFFFF, 0x0, 0x0, 0x8000⟩,
  ⟨0x400B0014, [], 0x0, 0x0, 0x0, 0x0⟩,
  ⟨0x400B0018, [], 0x0, 0x0, 0x0, 0x0⟩]
def rowsADC : List RegRow := [
  ⟨0x400C0000, [], 0x803F0FFF, 0x0, 0x0, 0x3F010C⟩,
  ⟨0x400C0004, [], 0x0, 0xF, 0x0, 0x0⟩,
  ⟨0x400C0008, [], 0xF, 0x0, 0x0, 0x0⟩,
  ⟨0x400C000C, [], 0x0, 0x0, 0x0, 0x0⟩,
  ⟨0x400C0010, [], 0xFFFFFFFF, 0x0, 0x0, 0x0⟩,
  ⟨0x400C0020, [(8, 0x4)], 0x0, 0x0, 0xC0000000, 0x0⟩]
def rowsPCIE : List RegRow := [
  ⟨0x400D0000, [], 0x1, 0x0, 0x0, 0x1⟩,
  ⟨0x400D0004, [], 0x0, 0xF, 0x0, 0x0⟩,
  ⟨0x400D0008, [], 0xF, 0x0, 0x0, 0x0⟩,
  ⟨0x400D000C, [], 0x0, 0x0, 0x0, 0x10241F5B⟩,
  ⟨0x400D0010, [], 0xFFFFFFFF, 0x0, 0x0, 0x0⟩,
  ⟨0x400D0014, [], 0xFFFFFFFF, 0x0, 0x0, 0x0⟩,
  ⟨0x400D0018, [], 0x0, 0x0, 0x0, 0x0⟩,
  ⟨0x400D001C, [], 0x0, 0x0, 0x0, 0x0⟩,
  ⟨0x400D0100, [(32, 0x4)], 0xFF, 0x0, 0x0, 0xFF⟩]
def rowsETH_0 : List RegRow := [
  ⟨0x400E0000, [(2, 0x10000)], 0xC330001F, 0x0, 0x0, 0x4⟩,
  ⟨0x400E0004, [(2, 0x10000)], 0x0, 0x1F, 0x0, 0x0⟩,
  ⟨0x400E0008, [(2, 0x10000)], 0x1F, 0x0, 0x0, 0x0⟩,
  ⟨0x400E000C, [(2, 0x10000)], 0x0, 0x0, 0x0, 0x0⟩,
  ⟨0x400E0010, [(2, 0x10000)], 0xFFFFFFFF, 0x0, 0x0, 0x0⟩,
  ⟨0x400E0014, [(2, 0x10000)], 0xFFFF, 0x0, 0x0, 0x0⟩,
  ⟨0x400E0018, [(2, 0x10000)], 0xFFFFFFFF, 0x0, 0x0, 0x0⟩,
  ⟨0x400E001C, [(2, 0x10000)], 0xFFFFFFFF, 0x0, 0x0, 0x0⟩,
  ⟨0x400E0020, [(2, 0x10000), (4, 0x4)], 0x80000FFF, 0x0, 0x0, 0x0⟩,
  ⟨0x400E0030, [(2, 0x10000), (4, 0x4)], 0x8000FFFF, 0x0, 0x0, 0x0⟩,
  ⟨0x400E0040, [(2, 0x10000)], 0xFFFFFFFF, 0x0, 0x0, 0x0⟩,
  ⟨0x400E0044, [(2, 0x10000)], 0x1FF, 0x0, 0x0, 0x1⟩]
def rowsETH_1 : List RegRow := [
  ⟨0x400E0048, [(2, 0x10000)], 0x0, 0x0, 0x0, 0x0⟩,
  ⟨0x400E0050, [(2, 0x10000)], 0xFFFFFFFF, 0x0, 0x0, 0x0⟩,
  ⟨0x400E0054, [(2, 0x10000)], 0x1FF, 0x0, 0x0, 0x1⟩,
  ⟨0x400E0058, [(2, 0x10000)], 0x0, 0x0, 0x0, 0x0⟩,
  ⟨0x400E0060, [(2, 0x10000)], 0x43FFFFFF, 0x0, 0x0, 0x0⟩,
  ⟨0x400E0070, [(2, 0x10000)], 0x0, 0x0, 0xFFFFFFFF, 0x0⟩,
  ⟨0x400E0074, [(2, 0x10000)], 0x0, 0x0, 0xFFFFFFFF, 0x0⟩,
  ⟨0x400E0100, [], 0xFFFFFFFF, 0x0, 0x0, 0xA000000⟩,
  ⟨0x400E0104, [], 0x3FFFFFFF, 0x0, 0x0, 0x0⟩,
  ⟨0x400E0108, [], 0xFFFFFFFF, 0x0, 0x0, 0x0⟩,
  ⟨0x400E010C, [], 0xFFFF, 0x0, 0x0, 0x0⟩,
  ⟨0x400E0110, [], 0x0, 0x0, 0x0, 0x0⟩]
def rowsETH : List RegRow := rowsETH_0 ++ rowsETH_1
def rowsSER_0 : List RegRow := [
  ⟨0x40160000, [(2, 0x100)], 0x8000011D, 0x0, 0x0, 0x0⟩,
  ⟨0x40160004, [(2, 0x100)], 0x0, 0x1E, 0x0, 0x0⟩,
  ⟨0x40160008, [(2, 0x100)], 0x1F, 0x0, 0x0, 0x0⟩,
  ⟨0x4016000C, [(2, 0x100)], 0xFF, 0x0, 0x0, 0x0⟩,
  ⟨0x40160010, [(2, 0x100)], 0xFFFFF, 0x0, 0x0, 0x360⟩,
  ⟨0x40160014, [(2, 0x100)], 0xFF, 0x0, 0x0, 0x0⟩,
  ⟨0x40161000, [(2, 0x100)], 0x83011F03, 0x0, 0x0, 0x700⟩,
  ⟨0x40161004, [(2, 0x100)], 0x0, 0x3, 0x0, 0x0⟩,
  ⟨0x40161008, [(2, 0x100)], 0x3, 0x0, 0x0, 0x0⟩,
  ⟨0x4016100C, [(2, 0x100)], 0xFFFFFFFF, 0x0, 0x0, 0x0⟩,
  ⟨0x40161010, [(2, 0x100)], 0xFF, 0x0, 0x0, 0x4⟩,
  ⟨0x40162000, [(2, 0x100)], 0x80000001, 0x0, 0x0, 0x0⟩]
def rowsSER_1 : List RegRow := [
  ⟨0x40162004, [(2, 0x100)], 0x0, 0xF, 0x0, 0x0⟩,
  ⟨0x40162008, [(2, 0x100)], 0xF, 0x0, 0x0, 0x0⟩,
  ⟨0x4016200C, [(2, 0x100)], 0x7F9F, 0x0, 0x0, 0x0⟩,
  ⟨0x40162010, [(2, 0x100)], 0xFF, 0x0, 0x0, 0x0⟩,
  ⟨0x40162014, [(2, 0x100)], 0xFFFF, 0x0, 0x0, 0x2710⟩,
  ⟨0x40163000, [], 0x7FFFC1FF, 0x0, 0x0, 0x0⟩,
  ⟨0x40163004, [], 0xFFFFFFFF, 0x0, 0x0, 0x0⟩,
  ⟨0x40163008, [], 0x0, 0x3, 0x0, 0x0⟩,
  ⟨0x40163100, [(64, 0x4)], 0xFFFFFFFF, 0x0, 0x0, 0x0⟩]
def rowsSER : List RegRow := rowsSER_0 ++ rowsSER_1
def rowsPRG : List RegRow := [
  ⟨0x40140000, [], 0xE0000000, 0x0, 0x0, 0x80000000⟩,
  ⟨0x40140004, [], 0x0, 0x1F, 0x0, 0x0⟩,
  ⟨0x40140008, [], 0x1F, 0x0, 0x0, 0x0⟩,
  ⟨0x4014000C, [], 0xFFFFFFFF, 0x0, 0x0, 0x0⟩,
  ⟨0x40140010, [], 0xFF, 0x0, 0x0, 0xA⟩,
  ⟨0x40140014, [], 0xF0007, 0x0, 0x0, 0x0⟩,
  ⟨0x40140018, [], 0x0, 0x0, 0x0, 0x0⟩,
  ⟨0x40140020, [(2, 0x40)], 0x0, 0x0, 0x0, 0x0⟩,
  ⟨0x40140024, [(2, 0x40)], 0x0, 0x0, 0xFFFF, 0x0⟩,
  ⟨0x40140030, [(2, 0x40), (8, 0x4)], 0x0, 0x0, 0x0, 0x0⟩]
def rowsPIN : List RegRow := [
  ⟨0x40150000, [(4, 0x20)], 0x0, 0x0, 0x0, 0x0⟩,
  ⟨0x40150004, [(4, 0x20)], 0xFFFFFF, 0x0, 0x0, 0x0⟩,
  ⟨0x40150008, [(4, 0x20)], 0x0, 0x0, 0x0, 0x0⟩,
  ⟨0x4015000C, [(4, 0x20)], 0x0, 0x0, 0x0, 0x0⟩,
  ⟨0x40150010, [(4, 0x20)], 0x0, 0x0, 0x0, 0x0⟩,
  ⟨0x40150014, [(4, 0x20)], 0xFFFFFF, 0x0, 0x0, 0x0⟩,
  ⟨0x40150100, [], 0x0, 0xFF, 0x0, 0x0⟩,
  ⟨0x40150104, [], 0xFF, 0x0, 0x0, 0x0⟩,
  ⟨0x40150108, [], 0x0, 0x0, 0x0, 0x0⟩,
  ⟨0x40150110, [(8, 0x4)], 0x8000003F, 0x0, 0x0, 0x0⟩,
  ⟨0x40150400, [(128, 0x4)], 0x8000007F, 0x0, 0x0, 0x0⟩,
  ⟨0x40151000, [(96, 0x4)], 0x8D34, 0x0, 0x0, 0x410⟩]
def rowsDBG_0 : List RegRow := [
  ⟨0x40170000, [], 0xFE800000, 0x0, 0x0, 0x0⟩,
  ⟨0x40170004, [], 0x0, 0x1D, 0x0, 0x0⟩,
  ⟨0x40170008, [], 0x0, 0x0, 0x0, 0x0⟩,
  ⟨0x4017000C, [], 0x0, 0x0, 0x0, 0x0⟩,
  ⟨0x40170010, [], 0xC3FF001F, 0x0, 0x0, 0x0⟩,
  ⟨0x40170014, [], 0xFFFFFFFF, 0x0, 0x0, 0x0⟩,
  ⟨0x40170018, [], 0x100303FF, 0x0, 0x0, 0x0⟩,
  ⟨0x4017001C, [], 0xFFFFFFFC, 0x0, 0x0, 0x0⟩,
  ⟨0x40170020, [], 0xFFFFFFFF, 0x0, 0x0, 0x0⟩,
  ⟨0x40170024, [], 0x7F, 0x0, 0x0, 0x0⟩,
  ⟨0x40170028, [], 0xFFFFFFFF, 0x0, 0x0, 0x0⟩,
  ⟨0x4017002C, [], 0xFFFFFFFF, 0x0, 0x0, 0x0⟩]
def rowsDBG_1 : List RegRow := [
  ⟨0x40170030, [], 0x0, 0xC, 0x0, 0x0⟩,
  ⟨0x40170040, [(32, 0x4)], 0x0, 0x0, 0x0, 0x0⟩,
  ⟨0x40170100, [(8, 0x8)], 0xFFFFFFFD, 0x0, 0x0, 0x0⟩,
  ⟨0x40170104, [(8, 0x8)], 0xFFFFFFFF, 0x0, 0x0, 0x0⟩,
  ⟨0x40170180, [(4, 0x10)], 0xFFFFFFFF, 0x0, 0x0, 0x0⟩,
  ⟨0x40170184, [(4, 0x10)], 0xFFFFFFFF, 0x0, 0x0, 0x0⟩,
  ⟨0x40170188, [(4, 0x10)], 0xFFFFFFFF, 0x0, 0x0, 0x0⟩,
  ⟨0x4017018C, [(4, 0x10)], 0xFE700FFF, 0x0, 0x0, 0x0⟩,
  ⟨0x40170200, [(8, 0x4)], 0xFFFFFFFF, 0x0, 0x0, 0x0⟩,
  ⟨0x40170220, [], 0x0, 0x0, 0x0, 0x0⟩,
  ⟨0x40170224, [], 0x0, 0x7, 0x0, 0x0⟩]
def rowsDBG : List RegRow := rowsDBG_0 ++ rowsDBG_1

/-- The registers of the block an address lies in (R8); the four HEAD blocks share one table, the two ETH blocks another. -/
def blockRows (a : Nat) : List RegRow :=
  match a / 0x10000 with
  | 0x4002 => rowsARRAY
  | 0x4001 => rowsCFG
  | 0x4010 | 0x4011 | 0x4012 | 0x4013 => rowsHEAD
  | 0x4000 => rowsSYS
  | 0x4003 => rowsSTORE
  | 0x4005 => rowsBLIT
  | 0x4006 => rowsDMA
  | 0x4007 => rowsCAM
  | 0x4008 => rowsAUD
  | 0x4009 => rowsICU
  | 0x400A => rowsTIM
  | 0x400B => rowsWDT
  | 0x400C => rowsADC
  | 0x400D => rowsPCIE
  | 0x400E | 0x400F => rowsETH
  | 0x4016 => rowsSER
  | 0x4014 => rowsPRG
  | 0x4015 => rowsPIN
  | 0x4017 => rowsDBG
  | _ => []

/-- Whether offset `o` from a register's base is one of its instances. -/
def dimsHit : List (Nat × Nat) → Nat → Bool
  | [], o => o == 0
  | (c, st) :: ds, o => let i := min (o / st) (c - 1)
                        dimsHit ds (o - i * st)

/-- The row of the register at address `a`, if one stands there (R4). -/
def regRow (a : Nat) : Option RegRow :=
  (blockRows a).find? fun r => decide (r.base ≤ a) && dimsHit r.dims (a - r.base)

/-- The bits of the ICU's per-source registers that exist: sources 86 to 127 are reserved (R296). -/
def icuMask (k : Nat) : Nat := if k < 2 then 0xFFFFFFFF else if k = 2 then 0x003FFFFF else 0

/-- The reset value of the word at register address `a`; an offset with no register reads zero (R4). The two exceptions
to one value per row are AUD_x_COEF_0 and COEF_5 (R295) and PIN_CFG_94 and 95 (R354). -/
def regReset (a : Nat) : Word :=
  if 0x40080210 ≤ a ∧ a < 0x40080300 ∧ (a % 0x40 = 0x10 ∨ a % 0x40 = 0x24) then 0x10000000
  else if a = 0x40151178 ∨ a = 0x4015117C then 0x400
  else match regRow a with
    | some r => BitVec.ofNat 32 r.reset
    | none => 0

end Sys2Proof.Machine
end

