-- ==== Sys2Proof/Machine/Tab.lean ====
section
/-! DEFINITION. Tables keyed by a number, kept in one canonical form: keys strictly rising, and no entry equal to what an
unlisted key reads as. Memory, the registers and every numbered family of the state are held this way. -/

namespace Sys2Proof.Machine

/-- A sparse table: strictly rising keys, no entry equal to the default of its key. -/
abbrev Tab (α : Type) := List (Nat × α)

/-- The entry at `k`; `d` says what an unlisted key reads as. -/
def tabGet {α : Type} (d : Nat → α) : Tab α → Nat → α
  | [], k => d k
  | (j, a) :: t, k => if k = j then a else tabGet d t k

/-- The table without the entries whose key fails `p`: those keys read as their default again. -/
def tabKeep {α : Type} (p : Nat → Bool) : Tab α → Tab α
  | [] => []
  | (j, a) :: t => if p j then (j, a) :: tabKeep p t else tabKeep p t

/-- The table with an entry `v` at `k`, in its place by key. -/
def tabPut {α : Type} : Tab α → Nat → α → Tab α
  | [], k, v => [(k, v)]
  | (j, a) :: t, k, v =>
    if k = j then (k, v) :: t
    else if k < j then (k, v) :: (j, a) :: t
    else (j, a) :: tabPut t k v

/-- The table with `v` at `k`; writing the default removes the entry. -/
def tabSet {α : Type} [DecidableEq α] (d : Nat → α) (t : Tab α) (k : Nat) (v : α) : Tab α :=
  if v = d k then tabKeep (fun j => j != k) t else tabPut t k v

/-- The canonical form: every key at least `lo`, strictly rising, no default entry. -/
def tabWfFrom {α : Type} [DecidableEq α] (d : Nat → α) : Nat → Tab α → Bool
  | _, [] => true
  | lo, (j, a) :: t => decide (lo ≤ j) && !decide (a = d j) && tabWfFrom d (j + 1) t

/-- The canonical form of a whole table. -/
def tabWf {α : Type} [DecidableEq α] (d : Nat → α) (t : Tab α) : Bool := tabWfFrom d 0 t

end Sys2Proof.Machine
end

