-- ==== Sys2Proof/Syntax.lean ====
section
/-! DEFINITION. The commands of the N1024, one constructor per row of spec/opcode_table.json. A command names the
one who sends it (`Master` for a register access, `Ctx` for the engine or core that executes an instruction) and the
operands the row's rule speaks of. What only the outside world can know at the event (the code a conversion finds, the
bytes of a received frame, how long a start took) is an operand too. -/

namespace Sys2Proof

/-- A head, HEAD_0 to HEAD_3. -/
abbrev Head := Fin 4
/-- A span engine by its logical number (R20). -/
abbrev EngineNo := Fin 1024
/-- A unit ID; 0 means "no unit" (R23). -/
abbrev UnitId := BitVec 12
/-- A compositor layer, 0 to 7 (R135). -/
abbrev LayerNo := Fin 8
/-- A check window, 0 to 15 (R184). -/
abbrev WindowNo := Fin 16
/-- A Store bank, 0 to 15 (R227). -/
abbrev BankNo := Fin 16
/-- A DMA channel, 0 to 7 (R260). -/
abbrev ChanNo := Fin 8
/-- Instance 0 or 1 of a block that comes in pairs: cameras, MACs, serial ports, Pragus lanes. -/
abbrev PortNo := Fin 2
/-- An audio source, V0 to V37 (R278). -/
abbrev SourceNo := Fin 38
/-- An interrupt source, 0 to 127 (R296). -/
abbrev IrqNo := Fin 128
/-- A timer, TIM_0 to TIM_7 (R305). -/
abbrev TimerNo := Fin 8
/-- A general or special register number in an instruction (R79, R80). -/
abbrev RegNo := BitVec 5

/-- Who makes a register access (R5, R6, R68, R175, R277, R329, R358). -/
inductive Master where
  /-- the control core at privileged level -/
  | core
  /-- a DMA channel (R262) -/
  | dma
  /-- the PCIe host through BAR 0 (R329) -/
  | pcie
  /-- the Roshorn debug port (R367, R368) -/
  | debug
  deriving DecidableEq, Repr

/-- The context that executes an instruction: the control core or a span engine (R116). -/
inductive Ctx where
  | cc
  | se (e : EngineNo)
  deriving DecidableEq, Repr

/-- The two core PLLs of R206. -/
inductive CorePll where
  | eclk
  | pclk
  deriving DecidableEq, Repr

/-- What the fuse map and the boot march find (R50, R56 steps 3 and 4, R244): the physical engines whose built-in test
fails, the ridges (8 × erg + ridge) with an unrepairable error, the memories of STORE_BOOT_FAIL, the number of repair entries
applied, and the failing cells that no fuse covers: byte address and bit, 0 to 7 of the data and 8 to 12 of the check bits. -/
structure Defects where
  engines : List Nat
  ridges  : List Nat
  memories : BitVec 19
  repairs : BitVec 8
  cells : List (Nat × Fin 13) := []
  deriving DecidableEq, Repr

/-- How an I2C transfer ends (R337). -/
inductive I2cEnd where
  | done
  | nack
  | arbLost
  deriving DecidableEq, Repr

/-- A host configuration request (R328): what the type 0 header, the power-management, the device, the MSI-X and
the Advanced Error Reporting capability let the host read or change. -/
inductive CfgReq where
  | readId
  | readClass
  | readBar (i : BitVec 3)
  | writeBar (i : BitVec 3) (v : Word)
  | setPower (d3hot : Bool)
  | setMsix (enable maskAll : Bool)
  /-- DWORD i of the type 0 header -/
  | readHeader (i : BitVec 4)
  | writeHeader (i : BitVec 4) (v : Word)
  /-- the device control and status word of the PCI Express capability -/
  | readDevice
  | writeDevice (v : Word)
  /-- Advanced Error Reporting: 0, 1, 2 status, mask and severity of uncorrectable errors, 3, 4 status and mask of correctable ones -/
  | readAer (i : BitVec 3)
  | writeAer (i : BitVec 3) (v : Word)
  deriving DecidableEq, Repr

/-- A read of a bank's old owner that is still outstanding when a hand-over's limit ends it (R231). -/
inductive OldRead where
  | core (c : Ctx) (a : Word)
  | layer (h : Head) (l : LayerNo) (a : Word)
  | dma (n : ChanNo)
  | blit (a : Word)
  | eth (n : PortNo) (tx : Bool)
  | host (off : BitVec 26)
  deriving DecidableEq, Repr

/-- The end of an eDP link training (R167, R217): whose, and whether it succeeded. -/
structure TrainingEnd where
  head : Head
  ok : Bool
  deriving DecidableEq, Repr

/-- A level at which wake input WAKEi has stood for 2 LFCLK periods (R222). -/
structure WakeLevel where
  pin : BitVec 2
  level : Bool
  deriving DecidableEq, Repr

/-- The limit of a bank's hand-over, with the old owner's reads that it ends (R231). -/
structure HandoverEnd where
  bank : BankNo
  reads : List OldRead
  deriving DecidableEq, Repr

/-- One command. The docstring of a constructor gives its row's mnemonic and rule. -/
inductive Instr where
  /-- REGISTER_WRITE (R5). -/
  | registerWrite (m : Master) (a v : Word)
  /-- RC_READ (R6). -/
  | rcRead (m : Master) (a coinc : Word)
  /-- LINE_START (R159). -/
  | lineStart (h : Head) (late : BitVec 12)
  /-- SLOT_RELEASE (R14). -/
  | slotRelease (h : Head)
  /-- STORE_TO_LINE_STALL_END (R14). -/
  | storeToLineStallEnd (e : EngineNo)
  /-- FRAME_BOUNDARY (R159). -/
  | frameBoundary (h : Head)
  /-- FACE_DOORBELL (R26). -/
  | faceDoorbell (m : Master) (u : UnitId) (v : Word)
  /-- CARAVAN_FORWARD (R396). -/
  | caravanForward (u : UnitId) (child : BitVec 6)
  /-- FACE_COMPLETE (R27). -/
  | faceComplete (e : EngineNo) (v : Word)
  /-- UNIT_PARK (R49). -/
  | unitPark (m : Master) (u : UnitId)
  /-- UNIT_RESTART (R49). -/
  | unitRestart (m : Master) (u : UnitId)
  /-- LEAD_WRITE (R54). -/
  | leadWrite (m : Master) (h : Head) (v : Word)
  /-- RESET_RELEASE (R55). -/
  | resetRelease (sel : BitVec 2) (pcieEn : Bool)
  /-- CORE_PLL_LOCK (R206). -/
  | corePllLock (p : CorePll) (d : Defects)
  /-- CORE_PLL_LOCK_TIMEOUT (R206). -/
  | corePllLockTimeout (p : CorePll)
  /-- FLASH_NO_ANSWER (R58). -/
  | flashNoAnswer
  /-- SECTION_STREAM_DONE (R56). -/
  | sectionStreamDone
  /-- DRAM_TRAINING_DONE (R56). -/
  | dramTrainingDone (ok : Bool)
  /-- BOOT_HEADS_UP (R56). -/
  | bootHeadsUp
  /-- FIRST_PICTURE (R56). -/
  | firstPicture (us : Word)
  /-- PROFILE_SWITCH_REQUEST (R74). -/
  | profileSwitchRequest (m : Master) (v : Word)
  /-- PROFILE_STAGE1_DONE (R74). -/
  | profileStage1Done
  /-- PROFILE_RELOAD_DONE (R74). -/
  | profileReloadDone (u : UnitId)
  /-- OR (R91). -/
  | or (c : Ctx) (rd rs rt : RegNo) (s : Bool)
  /-- AND (R91). -/
  | and (c : Ctx) (rd rs rt : RegNo) (s : Bool)
  /-- XOR (R91). -/
  | xor (c : Ctx) (rd rs rt : RegNo) (s : Bool)
  /-- ANDN (R91). -/
  | andn (c : Ctx) (rd rs rt : RegNo) (s : Bool)
  /-- ADD (R91). -/
  | add (c : Ctx) (rd rs rt : RegNo) (s : Bool)
  /-- SUB (R91). -/
  | sub (c : Ctx) (rd rs rt : RegNo) (s : Bool)
  /-- ADC (R91). -/
  | adc (c : Ctx) (rd rs rt : RegNo) (s : Bool)
  /-- SBC (R91). -/
  | sbc (c : Ctx) (rd rs rt : RegNo) (s : Bool)
  /-- NEG (R91). -/
  | neg (c : Ctx) (rd rs : RegNo) (s : Bool)
  /-- ABS (R91). -/
  | abs (c : Ctx) (rd rs : RegNo) (s : Bool)
  /-- SLT (R91). -/
  | slt (c : Ctx) (rd rs rt : RegNo) (s : Bool)
  /-- SLTU (R91). -/
  | sltu (c : Ctx) (rd rs rt : RegNo) (s : Bool)
  /-- MIN (R91). -/
  | min (c : Ctx) (rd rs rt : RegNo) (s : Bool)
  /-- MAX (R91). -/
  | max (c : Ctx) (rd rs rt : RegNo) (s : Bool)
  /-- MINU (R91). -/
  | minu (c : Ctx) (rd rs rt : RegNo) (s : Bool)
  /-- MAXU (R91). -/
  | maxu (c : Ctx) (rd rs rt : RegNo) (s : Bool)
  /-- SLL (R91). -/
  | sll (c : Ctx) (rd rs rt : RegNo) (s : Bool)
  /-- SRL (R91). -/
  | srl (c : Ctx) (rd rs rt : RegNo) (s : Bool)
  /-- SRA (R91). -/
  | sra (c : Ctx) (rd rs rt : RegNo) (s : Bool)
  /-- ROR (R91). -/
  | ror (c : Ctx) (rd rs rt : RegNo) (s : Bool)
  /-- SLLI (R91). -/
  | slli (c : Ctx) (rd rs : RegNo) (amt : BitVec 5) (s : Bool)
  /-- SRLI (R91). -/
  | srli (c : Ctx) (rd rs : RegNo) (amt : BitVec 5) (s : Bool)
  /-- SRAI (R91). -/
  | srai (c : Ctx) (rd rs : RegNo) (amt : BitVec 5) (s : Bool)
  /-- RORI (R91). -/
  | rori (c : Ctx) (rd rs : RegNo) (amt : BitVec 5) (s : Bool)
  /-- CLZ (R91). -/
  | clz (c : Ctx) (rd rs : RegNo) (s : Bool)
  /-- SEXTB (R91). -/
  | sextb (c : Ctx) (rd rs : RegNo) (s : Bool)
  /-- SEXTH (R91). -/
  | sexth (c : Ctx) (rd rs : RegNo) (s : Bool)
  /-- BEXT (R91). -/
  | bext (c : Ctx) (rd rs rt : RegNo) (s : Bool)
  /-- MUL (R94). -/
  | mul (c : Ctx) (rs rt : RegNo)
  /-- MULU (R94). -/
  | mulu (c : Ctx) (rs rt : RegNo)
  /-- MAC (R94). -/
  | mac (c : Ctx) (rs rt : RegNo)
  /-- MACU (R94). -/
  | macu (c : Ctx) (rs rt : RegNo)
  /-- PRODUCT_LANDS (R95). -/
  | productLands (c : Ctx)
  /-- DIV (R96). -/
  | div (c : Ctx) (rs rt : RegNo)
  /-- DIVU (R96). -/
  | divu (c : Ctx) (rs rt : RegNo)
  /-- ADDI (R92). -/
  | addi (c : Ctx) (rd rs : RegNo) (imm : BitVec 16)
  /-- ANDI (R92). -/
  | andi (c : Ctx) (rd rs : RegNo) (imm : BitVec 16)
  /-- ORI (R92). -/
  | ori (c : Ctx) (rd rs : RegNo) (imm : BitVec 16)
  /-- XORI (R92). -/
  | xori (c : Ctx) (rd rs : RegNo) (imm : BitVec 16)
  /-- LUI (R92). -/
  | lui (c : Ctx) (rd : RegNo) (imm : BitVec 16)
  /-- SLTI (R92). -/
  | slti (c : Ctx) (rd rs : RegNo) (imm : BitVec 16)
  /-- SLTIU (R92). -/
  | sltiu (c : Ctx) (rd rs : RegNo) (imm : BitVec 16)
  /-- ADDIS (R92). -/
  | addis (c : Ctx) (rd rs : RegNo) (imm : BitVec 16)
  /-- BEQ (R102). -/
  | beq (c : Ctx) (rs rt : RegNo) (off : BitVec 16)
  /-- BNE (R102). -/
  | bne (c : Ctx) (rs rt : RegNo) (off : BitVec 16)
  /-- BLT (R102). -/
  | blt (c : Ctx) (rs rt : RegNo) (off : BitVec 16)
  /-- BGE (R102). -/
  | bge (c : Ctx) (rs rt : RegNo) (off : BitVec 16)
  /-- BLTU (R102). -/
  | bltu (c : Ctx) (rs rt : RegNo) (off : BitVec 16)
  /-- BGEU (R102). -/
  | bgeu (c : Ctx) (rs rt : RegNo) (off : BitVec 16)
  /-- BF (R102). -/
  | bf (c : Ctx) (cond : BitVec 5) (off : BitVec 16)
  /-- J (R103). -/
  | j (c : Ctx) (off : BitVec 26)
  /-- CALL (R103). -/
  | call (c : Ctx) (off : BitVec 26)
  /-- LOOP (R104). -/
  | loop (c : Ctx) (rs : RegNo) (n : Bool) (d : BitVec 16)
  /-- LOOPI (R104). -/
  | loopi (c : Ctx) (n : Bool) (cnt : BitVec 9) (d : BitVec 16)
  /-- LB (R97). -/
  | lb (c : Ctx) (rd rs : RegNo) (imm : BitVec 16)
  /-- LBU (R97). -/
  | lbu (c : Ctx) (rd rs : RegNo) (imm : BitVec 16)
  /-- LH (R97). -/
  | lh (c : Ctx) (rd rs : RegNo) (imm : BitVec 16)
  /-- LHU (R97). -/
  | lhu (c : Ctx) (rd rs : RegNo) (imm : BitVec 16)
  /-- LW (R97). -/
  | lw (c : Ctx) (rd rs : RegNo) (imm : BitVec 16)
  /-- LD (R97). -/
  | ld (c : Ctx) (rd rs : RegNo) (imm : BitVec 16)
  /-- LL (R101). -/
  | ll (c : Ctx) (rd rs : RegNo) (imm : BitVec 16)
  /-- SB (R97). -/
  | sb (c : Ctx) (rd rs : RegNo) (imm : BitVec 16)
  /-- SH (R97). -/
  | sh (c : Ctx) (rd rs : RegNo) (imm : BitVec 16)
  /-- SW (R97). -/
  | sw (c : Ctx) (rd rs : RegNo) (imm : BitVec 16)
  /-- SD (R97). -/
  | sd (c : Ctx) (rd rs : RegNo) (imm : BitVec 16)
  /-- SC (R101). -/
  | sc (c : Ctx) (rd rs : RegNo) (imm : BitVec 16)
  /-- LBUA (R99). -/
  | lbua (c : Ctx) (rd : RegNo) (a16 : BitVec 16)
  /-- LHUA (R99). -/
  | lhua (c : Ctx) (rd : RegNo) (a16 : BitVec 16)
  /-- LWA (R99). -/
  | lwa (c : Ctx) (rd : RegNo) (a16 : BitVec 16)
  /-- SBA (R99). -/
  | sba (c : Ctx) (rd : RegNo) (a16 : BitVec 16)
  /-- SHA (R99). -/
  | sha (c : Ctx) (rd : RegNo) (a16 : BitVec 16)
  /-- SWA (R99). -/
  | swa (c : Ctx) (rd : RegNo) (a16 : BitVec 16)
  /-- LWSP (R97). -/
  | lwsp (c : Ctx) (rd : RegNo) (imm : BitVec 16)
  /-- SWSP (R97). -/
  | swsp (c : Ctx) (rd : RegNo) (imm : BitVec 16)
  /-- ADJSP (R97). -/
  | adjsp (c : Ctx) (imm : BitVec 16)
  /-- PADDUB (R108). -/
  | paddub (c : Ctx) (rd rs rt : RegNo)
  /-- PSUBUB (R108). -/
  | psubub (c : Ctx) (rd rs rt : RegNo)
  /-- PADDH (R108). -/
  | paddh (c : Ctx) (rd rs rt : RegNo)
  /-- PSUBH (R108). -/
  | psubh (c : Ctx) (rd rs rt : RegNo)
  /-- PMULH (R108). -/
  | pmulh (c : Ctx) (rd rs rt : RegNo)
  /-- PACKUB (R108). -/
  | packub (c : Ctx) (rd rs rt : RegNo)
  /-- MULA (R108). -/
  | mula (c : Ctx) (rd rs rt : RegNo)
  /-- COV (R108). -/
  | cov (c : Ctx) (rd rs rt : RegNo)
  /-- BLEND (R108). -/
  | blend (c : Ctx) (rd rs rt : RegNo)
  /-- BLENDP (R108). -/
  | blendp (c : Ctx) (rd rs rt : RegNo)
  /-- PAL_K (R109). -/
  | palK (c : Ctx) (k : BitVec 2) (rd rs rt : RegNo)
  /-- RSQE (R110). -/
  | rsqe (c : Ctx) (rd rs : RegNo)
  /-- RSQS (R110). -/
  | rsqs (c : Ctx) (rd rs rt : RegNo)
  /-- TFETCH (R109). -/
  | tfetch (c : Ctx) (rd rs : RegNo)
  /-- STL (R111). -/
  | stl (c : Ctx) (rs rt : RegNo)
  /-- STL8 (R111). -/
  | stl8 (c : Ctx) (rs rt : RegNo)
  /-- BRK (R112). -/
  | brk (c : Ctx)
  /-- WAIT (R40). -/
  | wait (c : Ctx)
  /-- SYSCALL (R112). -/
  | syscall (c : Ctx)
  /-- SYSRET (R112). -/
  | sysret (c : Ctx)
  /-- ERET (R125). -/
  | eret (c : Ctx)
  /-- BARP (R88). -/
  | barp (c : Ctx)
  /-- MFS (R113). -/
  | mfs (c : Ctx) (rd sr : RegNo)
  /-- MTS (R128). -/
  | mts (c : Ctx) (sr rs : RegNo)
  /-- JR (R103). -/
  | jr (c : Ctx) (rs : RegNo)
  /-- CALLR (R103). -/
  | callr (c : Ctx) (rs : RegNo)
  /-- RET (R103). -/
  | ret (c : Ctx)
  /-- PUSH (R100). -/
  | push (c : Ctx) (rs : RegNo)
  /-- POP (R100). -/
  | pop (c : Ctx) (rd : RegNo)
  /-- COMPLETE (R112). -/
  | complete (c : Ctx) (rs : RegNo)
  /-- INTERRUPT_ACCEPT (R300). -/
  | interruptAccept
  /-- LAYER_FLIP (R150). -/
  | layerFlip (m : Master) (h : Head) (l : LayerNo) (v : Word)
  /-- FENCE_SIG (R151). -/
  | fenceSig (m : Master) (h : Head) (v : Word)
  /-- FENCE_TIMEOUT (R152). -/
  | fenceTimeout (h : Head) (l : LayerNo)
  /-- HEAD_START (R167). -/
  | headStart (m : Master) (h : Head) (v : Word)
  /-- PIXEL_PLL_LOCK (R163). -/
  | pixelPllLock (h : Head)
  /-- PIXEL_PLL_LOCK_TIMEOUT (R163). -/
  | pixelPllLockTimeout (h : Head)
  /-- LINK_TRAINING_DONE (R167). -/
  | linkTrainingDone (e : TrainingEnd)
  /-- RASTER_START (R167). -/
  | rasterStart (h : Head)
  /-- HEAD_START_ABANDON (R167). -/
  | headStartAbandon (m : Master) (h : Head) (v : Word)
  /-- HEAD_STOP (R168). -/
  | headStop (m : Master) (h : Head) (v : Word)
  /-- HEAD_STOP_WITHDRAW (R168). -/
  | headStopWithdraw (m : Master) (h : Head) (v : Word)
  /-- HEAD_STOP_TAKE_EFFECT (R168). -/
  | headStopTakeEffect (h : Head)
  /-- PIXEL_PLL_LOCK_LOSS (R163). -/
  | pixelPllLockLoss (h : Head)
  /-- PHYERR (R165). -/
  | phyerr (h : Head)
  /-- TIMING_WRITE (R171). -/
  | timingWrite (m : Master) (h : Head) (r : BitVec 2) (v : Word)
  /-- PLL_WRITE (R162). -/
  | pllWrite (m : Master) (h : Head) (b : Bool) (v : Word)
  /-- BEAM_LIST_ARM (R174). -/
  | beamListArm (m : Master) (h : Head) (v : Word)
  /-- BEAM_LIST_CHECK_DONE (R174). -/
  | beamListCheckDone (h : Head)
  /-- BEAM_LIST_ENTRY (R175). -/
  | beamListEntry (h : Head)
  /-- BEAM_LIST_AUD_WRITE (R176). -/
  | beamListAudWrite
  /-- BLMEM_WRITE (R173). -/
  | blmemWrite (m : Master) (h : Head) (b : Bool) (i : BitVec 12) (v : Word)
  /-- FRAMING_FAULT (R183). -/
  | framingFault (h : Head)
  /-- PAD_SIGNATURE_FINAL (R187). -/
  | padSignatureFinal (h : Head) (n : WindowNo) (err : Word)
  /-- REFUGE_VIEW_EXIT_REQUEST (R193). -/
  | refugeViewExitRequest (m : Master) (h : Head) (v : Word)
  /-- DVALID_TICK (R194). -/
  | dvalidTick (h : Head)
  /-- DV_HALF_WRITE (R196). -/
  | dvHalfWrite (m : Master) (h : Head) (v : Word)
  /-- MODE_REQ_FULL (R211). -/
  | modeReqFull (m : Master)
  /-- MODE_REQ_LEAN (R210). -/
  | modeReqLean (m : Master)
  /-- MODE_REQ_REFUGE (R219). -/
  | modeReqRefuge (m : Master)
  /-- MODE_REQ_HOLD (R213). -/
  | modeReqHold (m : Master)
  /-- MODE_REQ_DORMANT (R222). -/
  | modeReqDormant (m : Master)
  /-- LEAN_ENTRY (R210). -/
  | leanEntry (cause : BitVec 8)
  /-- CLOCK_RAISE (R205). -/
  | clockRaise
  /-- THERMAL_SAMPLE (R208). -/
  | thermalSample (t : BitVec 16)
  /-- SUPWARN (R209). -/
  | supwarn
  /-- PFW_N_LOW (R213). -/
  | pfwNLow
  /-- HOLD_DELAY_EXPIRY (R214). -/
  | holdDelayExpiry
  /-- HOLD_ENTRY_COMPLETE (R214). -/
  | holdEntryComplete
  /-- PFW_N_HIGH (R213). -/
  | pfwNHigh
  /-- HOLD_RESUME (R217). -/
  | holdResume
  /-- RESUME_COMPLETE (R217). -/
  | resumeComplete (us : Word)
  /-- WAKE_TIMER_EXPIRY (R222). -/
  | wakeTimerExpiry
  /-- WAKE_PIN (R222). -/
  | wakePin (w : WakeLevel)
  /-- PRAGUS_ACTIVITY_WAKE (R222). -/
  | pragusActivityWake
  /-- POWER_ON_RESET (R225). -/
  | powerOnReset
  /-- RESET_N_ASSERT (R386). -/
  | resetNAssert (ns : Nat)
  /-- SOFTWARE_RESET (R224). -/
  | softwareReset (m : Master) (v : Word)
  /-- THERM_WRITE (R208). -/
  | thermWrite (m : Master) (v : Word)
  /-- OWNER_HANDOVER (R230). -/
  | ownerHandover (m : Master) (n : BankNo) (v : Word)
  /-- HANDOVER_COMPLETE (R230). -/
  | handoverComplete (n : BankNo)
  /-- HANDOVER_TIMEOUT (R231). -/
  | handoverTimeout (e : HandoverEnd)
  /-- STORE_PWR_WRITE (R235). -/
  | storePwrWrite (m : Master) (v : Word)
  /-- BANK_POWER_ON_DONE (R235). -/
  | bankPowerOnDone (n : BankNo)
  /-- ECC_INJECTION_ARM (R241). -/
  | eccInjectionArm (m : Master) (v : Word)
  /-- SCRUB_GO (R242). -/
  | scrubGo (m : Master) (v : Word)
  /-- SCRUB_REWRITE (R243). -/
  | scrubRewrite (ownerWrites : Bool)
  /-- SCRUB_DONE (R242). -/
  | scrubDone
  /-- SCRUB_STOP (R242). -/
  | scrubStop (m : Master) (v : Word)
  /-- MARCH_GO (R245). -/
  | marchGo (m : Master) (v : Word)
  /-- MARCH_DONE (R245). -/
  | marchDone (fails : List Nat)
  /-- BLIT_GO (R247). -/
  | blitGo (m : Master) (v : Word)
  /-- BLIT_STOP (R257). -/
  | blitStop (m : Master) (v : Word)
  /-- BLIT_END (R258). -/
  | blitEnd
  /-- BLIT_NOP (R248). -/
  | blitNop
  /-- BLIT_FILL (R250). -/
  | blitFill
  /-- BLIT_COPY (R253). -/
  | blitCopy
  /-- BLIT_KEY (R254). -/
  | blitKey
  /-- BLIT_BLEND (R255). -/
  | blitBlend
  /-- BLIT_CONVERT (R254). -/
  | blitConvert
  /-- PACED_ROW_START (R256). -/
  | pacedRowStart
  /-- DMA_GO (R264). -/
  | dmaGo (m : Master) (n : ChanNo) (v : Word)
  /-- DMA_ARM (R265). -/
  | dmaArm (m : Master) (n : ChanNo) (v : Word)
  /-- DMA_STOP (R266). -/
  | dmaStop (m : Master) (n : ChanNo) (v : Word)
  /-- DMA_BURST (R263). -/
  | dmaBurst (n : ChanNo)
  /-- DMA_COMPLETE (R267). -/
  | dmaComplete (n : ChanNo)
  /-- CAM_ENABLE (R270). -/
  | camEnable (m : Master) (n : PortNo) (v : Word)
  /-- CAM_DISABLE (R270). -/
  | camDisable (m : Master) (n : PortNo) (v : Word)
  /-- FRAME_START_PACKET (R271). -/
  | frameStartPacket (n : PortNo) (vc : BitVec 2) (num : BitVec 16)
  /-- CSI_LONG_PACKET (R269). -/
  | csiLongPacket (n : PortNo) (vc : BitVec 2) (dt : BitVec 6) (hdrOk crcOk : Bool) (bytes : List Byte)
  /-- FRAME_END_PACKET (R273). -/
  | frameEndPacket (n : PortNo) (vc : BitVec 2)
  /-- CAMERA_FRAME_COMPLETE (R273). -/
  | cameraFrameComplete (n : PortNo)
  /-- AUDIO_TICK (R276). -/
  | audioTick (left right : Word) (late : BitVec 38)
  /-- MCLKLOST (R276). -/
  | mclklost
  /-- SOURCE_ENABLE (R282). -/
  | sourceEnable (m : Master) (n : SourceNo) (v : Word)
  /-- RETRIG (R282). -/
  | retrig (m : Master) (n : SourceNo) (v : Word)
  /-- COMMIT (R286). -/
  | commit (m : Master) (b : BitVec 2) (v : Word)
  /-- AUDIO_ENABLE (R291). -/
  | audioEnable (m : Master) (v : Word)
  /-- AUD_REGISTER_WRITE (R277). -/
  | audRegisterWrite (m : Master) (off : BitVec 16) (v : Word)
  /-- INTERRUPT_REQUEST (R298). -/
  | interruptRequest (n : IrqNo)
  /-- ICU_SET (R298). -/
  | icuSet (m : Master) (k : BitVec 2) (v : Word)
  /-- ICU_PEND_CLEAR (R298). -/
  | icuPendClear (m : Master) (k : BitVec 2) (v rise : Word)
  /-- ICU_EOI (R301). -/
  | icuEoi (m : Master) (v : Word)
  /-- FILT_WRITE (R297). -/
  | filtWrite (m : Master) (n : IrqNo) (v : Word)
  /-- TIMER_TICK (R305). -/
  | timerTick (t : TimerNo)
  /-- TIMER_OVERFLOW (R305). -/
  | timerOverflow (t : TimerNo)
  /-- TIMER_MATCH (R306). -/
  | timerMatch (t : TimerNo) (ch : BitVec 2)
  /-- TIMER_CAPTURE (R308). -/
  | timerCapture (t : TimerNo) (ch : BitVec 2) (rising : Bool)
  /-- CAPR_READ (R308). -/
  | caprRead (m : Master) (t : TimerNo) (ch : BitVec 2)
  /-- CNT_WRITE (R305). -/
  | cntWrite (m : Master) (t : TimerNo) (v : Word)
  /-- WDT_SERVICE (R312). -/
  | wdtService (m : Master) (v : Word)
  /-- WDT_ENABLE (R313). -/
  | wdtEnable (m : Master) (v : Word)
  /-- WDT_WARN (R312). -/
  | wdtWarn
  /-- WDT_TIMEOUT (R312). -/
  | wdtTimeout
  /-- ADC_START (R316). -/
  | adcStart (m : Master) (v : Word)
  /-- ADC_CONVERSION_DONE (R316). -/
  | adcConversionDone (x : Int)
  /-- ADC_ENABLE (R317). -/
  | adcEnable (m : Master) (v : Word)
  /-- ADC_READY (R317). -/
  | adcReady
  /-- ADC_RES_READ (R316). -/
  | adcResRead (m : Master) (i : BitVec 3)
  /-- PRAGUS_FRAME_SEND (R322). -/
  | pragusFrameSend
  /-- PRAGUS_FRAME_RECEIVE (R325). -/
  | pragusFrameReceive (n : PortNo) (bytes : List Byte)
  /-- SUPERVISION_LOST (R326). -/
  | supervisionLost
  /-- PCIE_LINK_UP (R327). -/
  | pcieLinkUp (x2 : Bool) (speed : BitVec 2)
  /-- LINKEN_WRITE (R327). -/
  | linkenWrite (m : Master) (v : Word)
  /-- BAR0_ACCESS (R329). -/
  | bar0Access (off : BitVec 26) (be : BitVec 4) (wr : Option Word)
  /-- BAR2_ACCESS (R330). -/
  | bar2Access (off : Word) (be : BitVec 4) (wr : Option Word)
  /-- MSIX_SEND (R331). -/
  | msixSend (m : Master) (v : Word)
  /-- MSIX_MESSAGE (R331). -/
  | msixMessage (vec : BitVec 5)
  /-- TXPOLL (R334). -/
  | txpoll (m : Master) (n : PortNo) (v : Word)
  /-- ETH_TRANSMIT_FRAME (R334). -/
  | ethTransmitFrame (n : PortNo)
  /-- ETH_RECEIVE_FRAME (R335). -/
  | ethReceiveFrame (n : PortNo) (fcsOk : Bool) (bytes : List Byte)
  /-- PTP_NS_READ (R336). -/
  | ptpNsRead (m : Master)
  /-- PTP_NS_WRITE (R336). -/
  | ptpNsWrite (m : Master) (v : Word)
  /-- PTP_ADJ (R336). -/
  | ptpAdj (m : Master) (v : Word)
  /-- MDIO_GO (R332). -/
  | mdioGo (m : Master) (n : PortNo) (v : Word)
  /-- MDIO_DONE (R332). -/
  | mdioDone (n : PortNo) (rd : BitVec 16)
  /-- UART_DATA_WRITE (R340). -/
  | uartDataWrite (m : Master) (n : PortNo) (v : Word)
  /-- UART_DATA_READ (R340). -/
  | uartDataRead (m : Master) (n : PortNo)
  /-- UART_CHARACTER_RECEIVED (R337). -/
  | uartCharacterReceived (n : PortNo) (d : Byte) (par stop : Bool)
  /-- UART_CHARACTER_SENT (R337). -/
  | uartCharacterSent (n : PortNo)
  /-- UART_IDLE (R337). -/
  | uartIdle (n : PortNo)
  /-- SPI_DATA_WRITE (R340). -/
  | spiDataWrite (m : Master) (n : PortNo) (v : Word)
  /-- SPI_DATA_READ (R340). -/
  | spiDataRead (m : Master) (n : PortNo)
  /-- SPI_FRAME_DONE (R337). -/
  | spiFrameDone (n : PortNo) (miso : Word)
  /-- I2C_GO (R340). -/
  | i2cGo (m : Master) (n : PortNo) (v : Word)
  /-- I2C_DONE (R337). -/
  | i2cDone (n : PortNo) (how : I2cEnd) (rx : List Byte)
  /-- I2C_TIMEOUT (R337). -/
  | i2cTimeout (n : PortNo)
  /-- QSPI_GO (R340). -/
  | qspiGo (m : Master) (v : Word)
  /-- QSPI_COMMAND_START (R337). -/
  | qspiCommandStart
  /-- QSPI_DONE (R337). -/
  | qspiDone (rx : List Byte) (prog : List (Nat × Byte))
  /-- PIN_SEL_WRITE (R346). -/
  | pinSelWrite (m : Master) (off : BitVec 16) (v : Word)
  /-- PIN_SET (R348). -/
  | pinSet (m : Master) (k : BitVec 2) (v : Word)
  /-- PIN_CLR (R348). -/
  | pinClr (m : Master) (k : BitVec 2) (v : Word)
  /-- PIN_TGL (R348). -/
  | pinTgl (m : Master) (k : BitVec 2) (v : Word)
  /-- PRIVATE_PORT_ACCESS (R349). -/
  | privatePortAccess (off : BitVec 16) (size : BitVec 2) (wr : Option Word)
  /-- PIN_EVENT (R350). -/
  | pinEvent (n : BitVec 3) (level : Bool)
  /-- BANK_SUPPLY_CHANGE (R343). -/
  | bankSupplyChange (k code : BitVec 2)
  /-- TAP_RESET (R355). -/
  | tapReset
  /-- EXTEST (R357). -/
  | extest
  /-- SAMPLE_PRELOAD (R356). -/
  | samplePreload (cells : List Bool)
  /-- IDCODE (R356). -/
  | idcode
  /-- BYPASS (R356). -/
  | bypass (code : BitVec 5)
  /-- DBGACC (R358). -/
  | dbgacc (wr : Bool) (index : Byte) (data : Word)
  /-- DEBUG_ATTACH (R359). -/
  | debugAttach (v : Word)
  /-- DEBUG_DETACH (R359). -/
  | debugDetach (v : Word)
  /-- SYSRST (R360). -/
  | sysrst (v : Word)
  /-- DEBUG_HALT (R361). -/
  | debugHalt (cc : Bool) (u : UnitId)
  /-- DEBUG_RESUME (R361). -/
  | debugResume (cc : Bool) (u : UnitId)
  /-- DEBUG_STEP (R361). -/
  | debugStep (cc : Bool) (u : UnitId)
  /-- HALT_TAKES_EFFECT (R362). -/
  | haltTakesEffect (c : Ctx)
  /-- DBG_REG_READ (R366). -/
  | dbgRegRead
  /-- DBG_REG_WRITE (R366). -/
  | dbgRegWrite (v : Word)
  /-- DBG_MEM_WRITE (R367). -/
  | dbgMemWrite (v : Word)
  /-- DBG_MEM_READ (R367). -/
  | dbgMemRead (v : Word)
  /-- DBG_MEM_TIMEOUT (R367). -/
  | dbgMemTimeout
  /-- DBG_MEM_DONE (R367). -/
  | dbgMemDone
  /-- FUSE_PROGRAM (R376). -/
  | fuseProgram (v : Word)
  /-- FUSE_PROGRAM_DONE (R376). -/
  | fuseProgramDone (ok : Bool)
  /-- DBG_CHAN_D2C_WRITE (R377). -/
  | dbgChanD2cWrite (m : Master) (v : Word)
  /-- DBG_CHAN_D2C_READ (R377). -/
  | dbgChanD2cRead (m : Master)
  /-- DBG_CHAN_C2D_WRITE (R377). -/
  | dbgChanC2dWrite (m : Master) (v : Word)
  /-- DBG_CHAN_C2D_READ (R377). -/
  | dbgChanC2dRead (m : Master)
  /-- ILLEGAL_INSTRUCTION (R83). -/
  | illegalInstruction (c : Ctx) (w : Word)
  /-- UNCORRECTABLE_FETCH (R47). -/
  | uncorrectableFetch (c : Ctx)
  /-- FETCH_OUTSIDE_INSTRUCTION_SPACE (R85). -/
  | fetchOutsideInstructionSpace (c : Ctx)
  /-- CORE_PLL_RETRY (R206). -/
  | corePllRetry (p : CorePll)
  /-- SUPWARN_CLEAR (R209). -/
  | supwarnClear
  /-- RECOVERED_VERTICAL_SYNC (R183). -/
  | recoveredVerticalSync (h : Head)
  /-- PCIE_LINK_DOWN (R327). -/
  | pcieLinkDown
  /-- CONFIGURATION_REQUEST (R328). -/
  | configurationRequest (r : CfgReq)
  deriving DecidableEq, Repr

end Sys2Proof
end

