-- ==== Sys2Proof/Machine/State.lean ====
section
/-! DEFINITION. The state of the N1024 as plain data. Registers of the map stand in `regs` (Machine/Regs.lean names them);
memories in `mem`; what the spec gives the blocks beyond their registers (set-in-force copies, FIFOs, rings, sequencer
positions, pins) stands in one record per block. A field that is the model's own and no part of the machine says so. -/

namespace Sys2Proof.Machine

/-! ### The engines and the control core (R79 to R81, R116) -/

/-- One context: a span engine or the control core. -/
structure CoreSt where
  /-- g1 to g31; g0 has no storage (R79) -/
  g : Tab Word := []
  pc : Word := 0
  status : Word := 2
  bnk : Word := 0
  sp : Word := 0
  rsp : Word := 0
  lc0 : Word := 0
  ls0 : Word := 0
  le0 : Word := 0
  lc1 : Word := 0
  ls1 : Word := 0
  le1 : Word := 0
  mlo : Word := 0
  mhi : Word := 0
  epc : Word := 0
  estat : Word := 0
  ecause : Word := 0
  eaddr : Word := 0
  vbase : Word := 0
  spc : Word := 0
  sstat : Word := 0
  ssp : Word := 0
  sysent : Word := 0
  dfpc : Word := 0
  ctxid : Word := 0
  /-- the reserved word's address (R101) -/
  resv : Option Nat := none
  /-- products in flight, oldest first: the time each lands and its MHI:MLO value (R94) -/
  products : List (Nat × BitVec 64) := []
  /-- the time at which the next instruction can issue -/
  ready : Nat := 0
  /-- BARP bars prediction of the next control transfer (R88) -/
  barp : Bool := false
  /-- the context has been started: the control core by a reset's end, an engine by R70 -/
  started : Bool := false
  /-- stopped in WAIT (R40, R114) -/
  asleep : Bool := false
  /-- parked (R41); an engine starts parked -/
  parked : Bool := true
  /-- parked by a fault (R46) -/
  faulted : Bool := false
  /-- parked for a reload under stage 3 of R74 -/
  reloading : Bool := false
  /-- PARK by ARRAY_UNIT_CMD (R49) -/
  cmdParked : Bool := false
  /-- a PARK that waits for the end of the instruction which the engine is inside (R49) -/
  parkReq : Bool := false
  halted : Bool := false
  /-- a HALT or the halt after a STEP waits for the instruction boundary, with its reason (R361) -/
  haltReq : Option Nat := none
  /-- the halt's reason code (DBG_STATUS.CCREASON) -/
  reason : Nat := 0
  lockup : Bool := false
  /-- STACKMODE: 1 split (R100) -/
  split : Bool := false
  /-- FAULT_MODE: 1 park (R133) -/
  faultPark : Bool := false
  /-- the active instruction-memory half (R84) -/
  actHalf : Bool := false
  /-- the instruction held in a store-to-line stall (R14) or waiting for a hand-over (R230) -/
  stalled : Option Instr := none
  /-- the address whose instruction executes on resume although a fetch comparator matches it (R370) -/
  skipCmp : Option Word := none
  /-- the control core is in the ROM's default handler, which has stored its record and executes WAIT repeatedly (R132) -/
  inRom : Bool := false
  deriving DecidableEq, Repr

/-! ### Units, faces and tasks (R23 to R33, R69) -/

/-- Who queued a task, and so hears of its completion (R27). -/
inductive Queuer where
  | dispatcher (h ring : Nat)
  | parent (u : Nat)
  | outside
  deriving DecidableEq, Repr

/-- A queued task: its four words, a serial number shared by all copies, who queued it, the children that have still to
complete it, the children that have still to receive it, and whether its ring writes are discarded (R39). -/
structure Task where
  mb0 : Word := 0
  mb1 : Word := 0
  mb2 : Word := 0
  mb3 : Word := 0
  tid : Nat := 0
  src : Queuer := .outside
  /-- children (indices) that have not completed -/
  wait : List Nat := []
  /-- children (indices) to which a copy has still to be delivered (R396) -/
  togo : List Nat := []
  discard : Bool := false
  deriving DecidableEq, Repr

/-- A unit of the tree: its record (R69), its mailbox, queue, latched result and fault. `policy` 0 is a leaf. -/
structure UnitSt where
  parent : Nat := 0
  policy : Nat := 0
  nchild : Nat := 0
  resultChild : Nat := 0
  writerChild : Nat := 0
  slot : Option Nat := none
  engine : Nat := 0
  x0 : Nat := 0
  x1 : Nat := 0
  use : Nat := 0
  childIndex : Nat := 0
  split : Bool := false
  faultPark : Bool := false
  entry : Nat := 0
  mb0 : Word := 0
  mb1 : Word := 0
  mb2 : Word := 0
  mb3 : Word := 0
  queue : List Task := []
  result : Word := 0
  fault : Word := 0
  deriving DecidableEq, Repr

/-! ### Heads (R135 to R199) -/

/-- Where a head stands between stop and run (R167, R168). -/
inductive HeadPhase where
  | stopped
  | locking
  | training
  | ready
  | running
  deriving DecidableEq, Repr

/-- The eight timing values of R159. -/
structure Timing where
  hactive : Nat := 0
  hfp : Nat := 0
  hsync : Nat := 0
  hbp : Nat := 0
  vactive : Nat := 0
  vfp : Nat := 0
  vsync : Nat := 0
  vbp : Nat := 0
  deriving DecidableEq, Repr

/-- The source registers of a layer as one set (R150). -/
structure SrcSet where
  srcfmt : Word := 0
  solid : Word := 0
  base : Word := 0
  aux : Word := 0
  aux2 : Word := 0
  stride : Word := 0
  deriving DecidableEq, Repr

/-- The fence a flip arms (R151). -/
structure Fence where
  src : Nat
  slot : Nat
  deriving DecidableEq, Repr

/-- One line of a layer in its fetch buffer: first head pixel covered and the pixels in native form (ARGB8888, an index,
or Y, Cb, Cr in the low three bytes). -/
structure LineBuf where
  line : Int
  x0 : Int
  px : List Word
  late : Bool := false
  /-- the fetch waits for a hand-over (R230): POS, SIZE and SRC as sampled at its start -/
  held : Option (Word × Word × Word) := none
  deriving DecidableEq, Repr

/-- A layer's state beyond its registers. -/
structure LayerSt where
  act : SrcSet := {}
  pend : Option SrcSet := none
  fence : Option Fence := none
  timeout : Nat := 0
  /-- transparent to the end of the frame under R140 -/
  lost : Bool := false
  /-- transparent from the deadline on for a live-layer exception of R137 -/
  hidden : Bool := false
  /-- transparent until every leaf has resumed and a boundary has passed (R373) -/
  frzWait : Bool := false
  /-- POS, SIZE as sampled for the line being composed (R139) -/
  pos : Word := 0
  size : Word := 0
  cur : Option LineBuf := none
  next : Option LineBuf := none
  deriving DecidableEq, Repr

/-- A check window: the copies in force (R185) and this frame's progress. -/
structure WinSt where
  rectA : Word := 0
  rectB : Word := 0
  ctrl : Word := 0
  expect : Word := 0
  bad : Bool := false
  /-- running CRC-32C over the compositor's output bytes -/
  crc : Word := 0xFFFFFFFF
  div : Option Word := none
  /-- the window's pad signature has become final in this frame -/
  final : Bool := false
  /-- passed in this frame -/
  passed : Bool := false
  /-- its bit of `dvNeed` before it passed, and its AGE before its frame ended: what a pass that is withdrawn gives back
  (R183) -/
  need0 : Bool := false
  age0 : Nat := 15
  deriving DecidableEq, Repr

/-- The frame that has left the compositor and is still on its way through the PHY and the monitor receiver (R166, R187): its
windows, of which those that are not `final` have their comparison to come. -/
structure OldFrame where
  wins : Tab WinSt := []
  /-- its HEAD_h_FRAME -/
  frame : Word := 0
  reduced : Bool := false
  /-- DVSTOP was cleared while it ran, so its passes do not count for R196 -/
  dvArm : Bool := false
  /-- aborted, so not judged for framing (R183) -/
  aborted : Bool := false
  /-- its end, the next recovered vertical sync, has not been reported -/
  unsynced : Bool := false
  /-- windows whose AGE was set to 15 at its end or since, which its comparisons leave alone (R190) -/
  aged : Nat := 0
  deriving DecidableEq, Repr

/-- The refuge surface of a head, from its REFUGE section (R68, R192). -/
structure RefugeDesc where
  dest : Word := 0
  width : Nat := 0
  height : Nat := 0
  fmt : Nat := 0
  stride : Nat := 0
  regs : List (Word × Word) := []
  deriving DecidableEq, Repr

/-- A head's state beyond its registers. -/
structure HeadSt where
  phase : HeadPhase := .stopped
  line : Int := 0
  hpos : Int := 0
  /-- timing in force (R171) -/
  tim : Timing := {}
  /-- blanking lines of the frame in progress: V, V with HALFREF, or RB after an abort -/
  vblank : Nat := 0
  nlayers : Nat := 2
  dither : Bool := true
  depth6 : Bool := false
  /-- the lead in force; none has come into force before the first frame boundary (ARRAY_DISPSTAT_h resets to 0) -/
  lead : Nat := 0
  leadPend : Option Nat := none
  /-- PHY_CFG the running PHY started with (R168) -/
  phyRun : Word := 0
  /-- PHY_CFG of the last full link training (R217) -/
  trained : Word := 0
  /-- the start under way is a resume's, whose eDP training is a fast one (R217) -/
  fastTrain : Bool := false
  /-- the frame in progress began with restart blanking (R179) -/
  restart : Bool := false
  /-- VSYNC is asserted on the line in progress (R160) -/
  vsync : Bool := false
  /-- HEAD_SYNC as the main stream attributes of an eDP head carry it (R160) -/
  msa : Option Word := none
  /-- what links A and B of an LVDS PHY have sent of the line in progress, one 28-bit word per pixel: four pairs of seven bits;
  none is high impedance (R164) -/
  lvdsA : Option (List (BitVec 28)) := none
  lvdsB : Option (List (BitVec 28)) := none
  layers : Tab LayerSt := []
  wins : Tab WinSt := []
  old : OldFrame := {}
  /-- last active line whose active period has ended (R14), −1 before line 0 -/
  endedLine : Int := -1
  /-- pixels of the current line composed so far -/
  composed : Nat := 0
  /-- composed 10-bit components of the current line so far, and the output bytes sent (R147) -/
  out : List (BitVec 24) := []
  /-- line tasks dispatched and not complete: (ring, line, serial number) -/
  outstanding : List (Nat × Nat × Nat) := []
  /-- lines of this frame that are complete (R38): (ring, line) -/
  doneLines : List (Nat × Nat) := []
  /-- lines that the dispatcher has issued and whose active period has not ended, in the order of issue: what the slots of the
  rings hold (R14): (ring, line) -/
  slots : List (Nat × Nat) := []
  /-- LFCLK times of the aborts of the last second, newest first (R180) -/
  abortTimes : List Nat := []
  reduced : Bool := false
  /-- a framing fault was detected in this frame; nothing more is signed until vertical sync (R183) -/
  framing : Bool := false
  /-- beam list: bank and count in force, pending and being checked -/
  blAct : Option (Nat × Nat) := none
  blPend : Option (Nat × Nat) := none
  blCheck : Option (Nat × Nat) := none
  /-- enter or leave refuge view at the next boundary -/
  rfgEnter : Bool := false
  rfgExit : Bool := false
  refuge : Option RefugeDesc := none
  rfgLost : Bool := false
  rfgCur : Option LineBuf := none
  rfgNext : Option LineBuf := none
  /-- DVALID pin: none released, some level driven (R195) -/
  dvalid : Option Bool := none
  /-- half-period in force (R196) -/
  dvHalf : Nat := 250
  /-- windows with APRG that failed since the last Pragus frame (R324) -/
  failSince : Nat := 0
  /-- windows whose last failure asks for the interrupt of R191 -/
  airq : Nat := 0
  /-- aborts since boot or resume, for the Pragus frame (R323) -/
  aborts : Nat := 0
  /-- DVSTOP has been cleared and no boundary has passed since; windows that must still pass (R196) -/
  dvArm : Bool := false
  dvNeed : Nat := 0
  /-- the variant that the head shows is a lean one, and halves the head's refresh (R172, R210) -/
  leanVar : Bool := false
  halfref : Bool := false
  /-- the head was running when HOLD was entered (R217) -/
  resumeRun : Bool := false
  deriving DecidableEq, Repr

/-! ### Boot, image and profiles (R55 to R78) -/

/-- Where boot stands. -/
inductive BootPhase where
  | inReset
  | started
  | eclkLocked
  | pclkLocked
  /-- the control core halted before its first instruction (R360) -/
  | heldAtReset
  | streaming
  | training
  | heads
  | picture
  | done
  | waitLoop
  deriving DecidableEq, Repr

structure BootSt where
  phase : BootPhase := .inReset
  sel : Nat := 0
  /-- slot being tried, 0 A, 1 B, 2 the default image -/
  slot : Nat := 0
  tried : Nat := 0
  eclkFail : Bool := false
  pclkFail : Bool := false
  dramOk : Bool := false
  dramAnswered : Bool := false
  /-- DRAM bytes present (DRAM_SIZE of R61) -/
  dramBytes : Nat := 0
  splitStack : Bool := false
  /-- RSP of the CC_CODE section (R132) -/
  ccRsp : Word := 0
  /-- CACHE of the header (R61) -/
  cache : Nat := 0
  /-- what the fuse map and march found, and the declared spares -/
  fenced : List Nat := []
  spares : List Nat := []
  lostLogical : List Nat := []
  /-- section table of the running image: (type, index, offset, length, crc) -/
  sections : List (Nat × Nat × Nat × Nat × Nat) := []
  /-- failing cells that the march has found and no fuse covers (R244): byte address and bit -/
  cells : List (Nat × Fin 13) := []
  /-- what the march has still to show, while the control core is held at reset -/
  defects : Defects := { engines := [], ridges := [], memories := 0, repairs := 0 }
  deriving DecidableEq, Repr

/-- A program binding (R71): leaf, the head whose boundary governs it, program number, the half that holds it when it is
placed whole, and whether it fills both halves. -/
structure Bind where
  unit : Nat
  head : Nat
  program : Nat
  half : Bool
  full : Bool
  deriving DecidableEq, Repr

/-- A PROFILE section as read (R71): roots are (4 × head + ring, the ARRAY_ROOT_n word). -/
structure Variant where
  reload : Nat := 0
  halfref : Nat := 0
  heads : Nat := 0
  leads : List Nat := []
  roots : List (Nat × Word) := []
  binds : List Bind := []
  regs : List (Word × Word) := []
  deriving DecidableEq, Repr

/-- The profile sequencer (R74). -/
structure ProfSt where
  /-- a switch to (profile, lean) is under way -/
  target : Option (Nat × Bool) := none
  /-- the target variant, once stage 1 has read and loaded it -/
  plan : Option Variant := none
  /-- the programs that stand in the leaves -/
  bound : List Bind := []
  /-- heads enabled, each by the variant that it shows -/
  heads : Nat := 0
  /-- heads that have still to pass stage 2, and those that have passed it in this switch -/
  todo : List Nat := []
  switched : List Nat := []
  /-- leaves parked for a reload under stage 3; those of them loaded, which wait for their head's boundary -/
  reload : List Bind := []
  reloaded : List Nat := []
  /-- the AUD and PIN entries are applied -/
  othersDone : Bool := false
  /-- a reload has failed (R76) -/
  failed : Bool := false
  /-- the mode whose entry the switch is part of (R210, R211) -/
  forMode : Option Nat := none
  leanActive : Bool := false
  deriving DecidableEq, Repr

/-! ### Modes (R200 to R226) -/

structure ModeSt where
  /-- HOLD or DORMANT entry has run its step 1 to this step of R214 -/
  entryStep : Nat := 0
  prev : Nat := 1
  byRequest : Bool := false
  pfwLow : Bool := false
  /-- the VSEL output is driven high, as it is in reset (R205) -/
  vsel : Bool := true
  /-- PFW_N recognised low since a requested HOLD was entered (R213) -/
  pfwSeen : Bool := false
  /-- the wake event of a requested HOLD, or of DORMANT during its entry, has come (R213, R222) -/
  wakePending : Bool := false
  /-- the clocks wait for VSEL to settle before they double (R205) -/
  raise : Option Nat := none
  /-- REFUGE is being left for this mode, and the heads that have still to pass their boundary (R221) -/
  exitTo : Option Nat := none
  exitHeads : List Nat := []
  /-- held in reset after 135 °C (R212), by RESET_N or bank D (R381) -/
  thermHold : Bool := false
  pinHold : Bool := false
  /-- BOOT restarts once PFW_N is high (R218) -/
  pfwHold : Bool := false
  /-- LFCLK edges since power-on, and the phase of LFCLK against PCLK -/
  lf : Nat := 0
  lfPhase : Nat := 0
  /-- resume under way, at which step of R217 -/
  resumeStep : Nat := 0
  /-- the mode that is emulated, from its entry on (R375) -/
  emul : Option Nat := none
  deriving DecidableEq, Repr

/-! ### Store, blitter, DMA, cameras -/

structure StoreSt where
  /-- the scrubber's next word -/
  scrubPos : Nat := 0
  /-- SCRUB_END as GO checked it -/
  scrubTo : Nat := 0
  marchBank : Nat := 0
  marchKeep : Bool := false
  /-- uncorrectable errors found by readers since boot or resume (R323) -/
  ueCount : Nat := 0
  deriving DecidableEq, Repr

/-- A surface descriptor as Sirocco read it (R249). -/
structure Surf where
  base : Nat := 0
  aux : Nat := 0
  aux2 : Nat := 0
  stride : Nat := 0
  cstride : Nat := 0
  width : Nat := 0
  height : Nat := 0
  fmt : Nat := 0
  csc : Nat := 0
  premul : Bool := false
  deriving DecidableEq, Repr

/-- A paced command in progress: its words and the next destination row (R256). -/
structure PacedSt where
  words : List Word
  src : Surf
  dst : Surf
  row : Nat
  deriving DecidableEq, Repr

structure BlitSt where
  index : Nat := 0
  paced : Option PacedSt := none
  deriving DecidableEq, Repr

structure DmaSt where
  k0 : Nat := 0
  k1 : Nat := 0
  k2 : Nat := 0
  /-- every element has moved; DMA_COMPLETE is due -/
  moved : Bool := false
  deriving DecidableEq, Repr

structure CamSt where
  lastDone : Option Nat := none
  ybase : Nat := 0
  aux : Nat := 0
  aux2 : Nat := 0
  lines : Nat := 0
  /-- cause that has made the frame bad, 0 none -/
  bad : Nat := 0
  frameNum : Nat := 0
  /-- every write is made and the frame end packet has come -/
  ended : Bool := false
  deriving DecidableEq, Repr

/-! ### Audio (R276 to R295) -/

structure SrcSt where
  /-- phase accumulator, or the fraction of the sample position -/
  p : Word := 0
  pos : Nat := 0
  lfsr : Nat := 0x7FFF
  pred : Int := 0
  stepIdx : Nat := 0
  /-- ADPCM state at the loop-start sample (R280) -/
  loopPred : Int := 0
  loopIdx : Nat := 0
  /-- the last converter inputs, newest first -/
  hist : List Int := []
  /-- converter inputs since the last sample of a voice that does not loop: the converter empties (R280) -/
  drain : Nat := 0
  deriving DecidableEq, Repr

structure BusSt where
  /-- coefficients in force (R286) -/
  coef : List Int := [268435456, 0, 0, 0, 0, 268435456, 0, 0, 0, 0]
  commit : Bool := false
  /-- x₋₁, x₋₂, y₋₁, y₋₂ of biquad A and B -/
  bqA : List Int := [0, 0, 0, 0]
  bqB : List Int := [0, 0, 0, 0]
  limGain : Nat := 0x10000
  deriving DecidableEq, Repr

structure AudSt where
  src : Tab SrcSt := []
  bus : Tab BusSt := []
  hold : Nat := 0
  duckGain : Nat := 0x8000
  /-- the beam-list queue of R176: (address, value), oldest first -/
  queue : List (Word × Word) := []
  /-- channel samples computed at the last tick, and those now on the ports (R277) -/
  out : List Int := []
  ports : List Int := []
  /-- AUD_MUTE_N is driven high (R292) -/
  unmuted : Bool := false
  /-- 16 kHz input: the tick within three -/
  inPhase : Nat := 0
  deriving DecidableEq, Repr

/-! ### Links, pins and debug -/

structure PrgSt where
  first : Bool := true
  /-- the supervision timer counts (R326), since this time -/
  supRun : Bool := false
  supAt : Nat := 0
  /-- the bytes of the frame last sent on lanes 0 and 1 -/
  sent0 : List Byte := []
  sent1 : List Byte := []
  deriving DecidableEq, Repr

structure PcieSt where
  bar0 : Word := 0
  bar2 : Word := 0
  bar3 : Word := 0
  d3hot : Bool := false
  /-- the type 0 header's Command register, its error bits of Status by bit number, cache line size and interrupt line (R328) -/
  command : BitVec 16 := 0
  status : BitVec 16 := 0
  cacheLine : Byte := 0
  intLine : Byte := 0
  /-- maximum payload in use: 0, 128 bytes, or 1, 256 bytes; and the device status bits 3 to 0 -/
  payload : BitVec 3 := 0
  devStatus : BitVec 4 := 0
  /-- Advanced Error Reporting: status, mask and severity of uncorrectable errors, status and mask of correctable ones -/
  aerUnc : Word := 0
  aerUncMask : Word := 0
  aerUncSev : Word := 0x00462030
  aerCor : Word := 0
  aerCorMask : Word := 0x00002000
  msixEn : Bool := false
  maskAll : Bool := false
  /-- MSI-X table words, four per vector -/
  table : Tab Word := []
  pend : Word := 0
  /-- the last message sent: address, upper address, data -/
  sent : Option (Word × Word × Word) := none
  deriving DecidableEq, Repr

structure PtpSt where
  sec : Nat := 0
  ns : Nat := 0
  frac : Nat := 0
  holdSec : Nat := 0
  deriving DecidableEq, Repr

structure EthSt where
  /-- last frame sent, without FCS, with its FCS validity -/
  sent : List Byte := []
  sentOk : Bool := true
  /-- the transmitter reads the head descriptor: it has not met one that software owns (R334) -/
  poll : Bool := false
  /-- a received pause frame holds transmission until this time (R332) -/
  pause : Nat := 0
  deriving DecidableEq, Repr

structure FifoSt where
  tx : List Word := []
  rx : List Word := []
  /-- level of the line last sent -/
  last : Word := 0
  /-- the time at which the last character came in (R11) -/
  rxAt : Option Nat := none
  /-- while DBG_FREEZE stops the port: what was under way when it came has ended, so that nothing is sent, or taken, any more
  (R374) -/
  txDone : Bool := false
  rxDone : Bool := false
  deriving DecidableEq, Repr

structure QspiSt where
  held : Bool := false
  deriving DecidableEq, Repr

structure PinSt where
  /-- level driven onto a ball from outside; none when nothing drives it -/
  ext : Tab (Option Bool) := []
  /-- HOLD latch: what every output stage did, none for off; the configuration stands in the registers (R223, R351) -/
  latch : Option (List (Option Bool)) := none
  /-- the synchronised levels of the eight event lines at the last PCLK, bit n for line n (R350) -/
  evtSeen : Nat := 0
  /-- lines whose edge detector has had its first sample (R347) -/
  evtInit : Nat := 0
  /-- RESET_N is held low, as it is at power-up (R382) -/
  resetLow : Bool := true
  deriving DecidableEq, Repr

structure TapSt where
  ir : BitVec 5 := 2
  cells : List Bool := []
  /-- the ball levels that the cells captured last (R357) -/
  captured : List Bool := []
  /-- an access that waits for PCLK (R358): write, INDEX, DATA -/
  run : Option (Bool × Nat × Word) := none
  /-- result of the last DBGACC access: data, DONE, ERR -/
  data : Word := 0
  done : Bool := false
  err : Bool := false
  deriving DecidableEq, Repr

structure DbgSt where
  /-- a memory access is running: some (write data) or some none for a read -/
  access : Option (Option Word) := none
  memData : Word := 0
  /-- a fuse programming is running: (KEYHASH, AUTHREQ) -/
  fuse : Option (Bool × Bool) := none
  deriving DecidableEq, Repr

/-- The fuses of R67 and R376: they outlive every reset. -/
structure FuseSt where
  keyv : Bool := false
  authreq : Bool := false
  hash : List Byte := []
  deriving DecidableEq, Repr

/-- What a requester hears of its access: nothing, data, a bus error; and to the PCIe host Unsupported Request, Completer
Abort, or data sent poisoned (R329, R238). -/
inductive Resp where
  | none
  | data (w : Word)
  | refused
  | unsupported
  | aborted
  | poisoned (w : Word)
  deriving DecidableEq, Repr

/-! ### The whole state -/

/-- A command of a block whose access a hand-over holds (R230), with its operands: a command of Sirocco's list by its OP, a row of
a paced one, the packets and the completion of a camera frame, a frame of a MAC out or in, a BAR 0 access. -/
inductive Held where
  | blit (op : Nat)
  | blitRow
  | frameStart (n : PortNo) (vc : BitVec 2) (num : BitVec 16)
  | csiLine (n : PortNo) (vc : BitVec 2) (dt : BitVec 6) (hdrOk crcOk : Bool) (bytes : List Byte)
  | frameEnd (n : PortNo) (vc : BitVec 2)
  | frameDone (n : PortNo)
  | macTx (n : PortNo)
  | macRx (n : PortNo) (fcsOk : Bool) (bytes : List Byte)
  | host (off : BitVec 26) (be : BitVec 4) (wr : Option Word)
  deriving DecidableEq, Repr

/-- A request line behind its synchroniser (R297): its level, for how many PCLK, up to 15, it has held it, and the filtered
request. -/
structure FiltSt where
  level : Bool := false
  held : Nat := 15
  out : Bool := false
  deriving DecidableEq, Repr

structure State where
  /-- the commands that wait, first in, first out -/
  pending : List Instr := []
  /-- time in periods of the 2,400 MHz VCO; one PCLK is 24 -/
  now : Nat := 0
  /-- the model's own counter of free values drawn; no part of the machine -/
  freeCtr : Nat := 0
  regs : Tab Word := []
  /-- byte memories by control-core physical address; engine p's instruction memory at 0x1_0000_0000 + 0x2000 × p -/
  mem : List Host.Cell := []
  /-- stored check bits exclusive-OR the computed ones, per byte (R236) -/
  ecc : Tab (BitVec 5) := []
  /-- byte ranges whose contents are lost and not yet rewritten (R240) -/
  undef : List (Nat × Nat) := []
  /-- CYCLE at time `cycT0` -/
  cycBase : Nat := 0
  cycT0 : Nat := 0
  cc : CoreSt := { parked := false }
  eng : Tab CoreSt := []
  /-- physical engine of a logical engine (R51) -/
  phys : Tab Nat := []
  units : Tab (Option UnitSt) := []
  nextTid : Nat := 0
  heads : Tab HeadSt := []
  boot : BootSt := {}
  prof : ProfSt := {}
  mode : ModeSt := {}
  store : StoreSt := {}
  blit : BlitSt := {}
  dma : Tab DmaSt := []
  /-- the channel that the DMA engine served last (R263) -/
  dmaLast : Nat := 7
  cam : Tab CamSt := []
  aud : AudSt := {}
  /-- the ICU's priority stack, top first: (source, PRIO) -/
  icuStack : List (Nat × Nat) := []
  /-- the glitch filters of the request lines (R297) -/
  icuFilt : Tab FiltSt := []
  /-- live falling captures by 4t + c (R308) -/
  capf : Tab Word := []
  wdtSvc : Bool := false
  adcSlot : Nat := 0
  prg : PrgSt := {}
  pcie : PcieSt := {}
  ptp : PtpSt := {}
  eth : Tab EthSt := []
  uart : Tab FifoSt := []
  spi : Tab FifoSt := []
  i2c : Tab FifoSt := []
  qspi : QspiSt := {}
  /-- the external configuration flash; an erased byte reads 0xFF (R65) -/
  flash : Tab Byte := []
  pins : PinSt := {}
  tap : TapSt := {}
  dbg : DbgSt := {}
  fuses : FuseSt := {}
  /-- commands of a block master whose accesses a hand-over holds, oldest first (R230) -/
  waiting : List Held := []
  /-- the model's own mark of such an access while its command runs; no part of the machine -/
  blocked : Bool := false
  /-- what the last access returned to its requester -/
  resp : Resp := .none
  deriving DecidableEq, Repr

/-- Why a step can fault: never. Every access the spec refuses has an outcome the spec gives (an exception, an error flag,
a refusal recorded in a register), so no command of this block faults. -/
inductive Fault where
  deriving DecidableEq, Repr

/-- Why a step can be refused. -/
inductive Refusal where
  /-- raised by an arm of `exec` for a command that has no meaning yet; safe: nothing can be proved of its effect -/
  | notModelled (mnemonic : String)
  deriving DecidableEq, Repr

/-- The machine right after a power-on reset (R225), the command queue empty. Every register of the map reads its reset
value (an unlisted key of `regs`); memories and balls hold what the assumption log names. -/
def State.reset : State := {}

end Sys2Proof.Machine
end

