-- ==== Sys2Proof/Machine/Ops.lean ====
section
/-! DEFINITION. The named operations every command is built from: registers and fields, the per-block records, time,
byte memory with its error control (R236 to R241), Store ownership (R229, R230, R235) and the error records. -/

namespace Sys2Proof.Machine

/-- What a command answers. -/
abbrev Out := Host.Outcome State Fault Refusal

/-! ### Registers -/

/-- The stored word of the register at `a`. -/
def State.rd (s : State) (a : Nat) : Word := tabGet regReset s.regs a

/-- Store a register word. -/
def State.wr (s : State) (a : Nat) (v : Word) : State := { s with regs := tabSet regReset s.regs a v }

/-- A field's value. -/
def State.get (s : State) (f : Fld) : Nat := bitsOf (s.rd f.addr) f.lo f.width

/-- Set a field. -/
def State.put (s : State) (f : Fld) (v : Nat) : State := s.wr f.addr (setBits (s.rd f.addr) f.lo f.width v)

/-- A field read as a flag. -/
def State.flag (s : State) (f : Fld) : Bool := s.get f != 0

/-- Set a one-bit field. -/
def State.on (s : State) (f : Fld) : State := s.put f 1

/-- Clear a field. -/
def State.off (s : State) (f : Fld) : State := s.put f 0

/-- Set bit `i` of a field that holds one bit per item. -/
def State.onBit (s : State) (f : Fld) (i : Nat) : State := s.put f (natSetBit (s.get f) i true)

/-- Clear bit `i` of such a field. -/
def State.offBit (s : State) (f : Fld) (i : Nat) : State := s.put f (natSetBit (s.get f) i false)

/-- Count one up in a saturating counter field. -/
def State.satUp (s : State) (f : Fld) : State := s.put f (satInc f.width (s.get f))

/-- Apply `f` if `b` holds. -/
def State.iff (s : State) (b : Bool) (f : State → State) : State := if b then f s else s

/-- Apply a function for every number below `n`, in ascending order. -/
def State.forEach (s : State) (n : Nat) (f : Nat → State → State) : State :=
  (List.range n).foldl (fun t i => f i t) s

/-! ### The records -/

def dflt {α : Type} (a : α) : Nat → α := fun _ => a

def State.head (s : State) (h : Nat) : HeadSt := tabGet (dflt {}) s.heads h
def State.setHead (s : State) (h : Nat) (x : HeadSt) : State := { s with heads := tabSet (dflt {}) s.heads h x }
def State.modHead (s : State) (h : Nat) (f : HeadSt → HeadSt) : State := s.setHead h (f (s.head h))
def HeadSt.layer (x : HeadSt) (l : Nat) : LayerSt := tabGet (dflt {}) x.layers l
def HeadSt.setLayer (x : HeadSt) (l : Nat) (y : LayerSt) : HeadSt := { x with layers := tabSet (dflt {}) x.layers l y }
def HeadSt.win (x : HeadSt) (n : Nat) : WinSt := tabGet (dflt {}) x.wins n
def HeadSt.setWin (x : HeadSt) (n : Nat) (y : WinSt) : HeadSt := { x with wins := tabSet (dflt {}) x.wins n y }
def State.layer (s : State) (h l : Nat) : LayerSt := (s.head h).layer l
def State.modLayer (s : State) (h l : Nat) (f : LayerSt → LayerSt) : State :=
  s.modHead h fun x => x.setLayer l (f (x.layer l))
def State.modWin (s : State) (h n : Nat) (f : WinSt → WinSt) : State :=
  s.modHead h fun x => x.setWin n (f (x.win n))

def State.engine (s : State) (e : Nat) : CoreSt := tabGet (dflt {}) s.eng e
def State.setEngine (s : State) (e : Nat) (x : CoreSt) : State := { s with eng := tabSet (dflt {}) s.eng e x }
def State.modEngine (s : State) (e : Nat) (f : CoreSt → CoreSt) : State := s.setEngine e (f (s.engine e))
/-- The record of a context. -/
def State.core (s : State) : Ctx → CoreSt
  | .cc => s.cc
  | .se e => s.engine e.val
def State.setCore (s : State) : Ctx → CoreSt → State
  | .cc, x => { s with cc := x }
  | .se e, x => s.setEngine e.val x
def State.modCore (s : State) (c : Ctx) (f : CoreSt → CoreSt) : State := s.setCore c (f (s.core c))
/-- Physical engine of a logical one (R20, R51). -/
def State.physOf (s : State) (e : Nat) : Nat := tabGet id s.phys e
/-- Logical engine of a physical one: the spare map is read backwards. -/
def State.logicalOf (s : State) (p : Nat) : Nat :=
  match s.phys.find? (fun x => x.2 == p) with
  | some x => x.1
  | none => p

def State.unit? (s : State) (u : Nat) : Option UnitSt := tabGet (dflt none) s.units u
def State.setUnit (s : State) (u : Nat) (x : Option UnitSt) : State := { s with units := tabSet (dflt none) s.units u x }
def State.modUnit (s : State) (u : Nat) (f : UnitSt → UnitSt) : State :=
  match s.unit? u with
  | some x => s.setUnit u (some (f x))
  | none => s

def State.dmaSt (s : State) (n : Nat) : DmaSt := tabGet (dflt {}) s.dma n
def State.setDma (s : State) (n : Nat) (x : DmaSt) : State := { s with dma := tabSet (dflt {}) s.dma n x }
def State.camSt (s : State) (n : Nat) : CamSt := tabGet (dflt {}) s.cam n
def State.setCam (s : State) (n : Nat) (x : CamSt) : State := { s with cam := tabSet (dflt {}) s.cam n x }
def State.ethSt (s : State) (n : Nat) : EthSt := tabGet (dflt {}) s.eth n
def State.setEth (s : State) (n : Nat) (x : EthSt) : State := { s with eth := tabSet (dflt {}) s.eth n x }
def State.uartSt (s : State) (n : Nat) : FifoSt := tabGet (dflt {}) s.uart n
def State.setUart (s : State) (n : Nat) (x : FifoSt) : State := { s with uart := tabSet (dflt {}) s.uart n x }
def State.spiSt (s : State) (n : Nat) : FifoSt := tabGet (dflt {}) s.spi n
def State.setSpi (s : State) (n : Nat) (x : FifoSt) : State := { s with spi := tabSet (dflt {}) s.spi n x }
def State.i2cSt (s : State) (n : Nat) : FifoSt := tabGet (dflt {}) s.i2c n
def State.setI2c (s : State) (n : Nat) (x : FifoSt) : State := { s with i2c := tabSet (dflt {}) s.i2c n x }
def State.audSrc (s : State) (n : Nat) : SrcSt := tabGet (dflt {}) s.aud.src n
def State.setAudSrc (s : State) (n : Nat) (x : SrcSt) : State :=
  { s with aud := { s.aud with src := tabSet (dflt {}) s.aud.src n x } }
def State.audBus (s : State) (b : Nat) : BusSt := tabGet (dflt {}) s.aud.bus b
def State.setAudBus (s : State) (b : Nat) (x : BusSt) : State :=
  { s with aud := { s.aud with bus := tabSet (dflt {}) s.aud.bus b x } }

/-- Answer a reader, or tell it of a refusal. -/
def State.answer (s : State) (w : Word) : State := { s with resp := .data w }
def State.refuse (s : State) : State := { s with resp := .refused }

/-! ### Time (R206) -/

/-- The mode in force (R200). -/
def State.modeNow (s : State) : Nat := s.get F.SYS_MODE_MODE
/-- The peripheral clock runs: both core PLLs have locked since the reset (R206), and the mode is not HOLD, unless a resume has
reached its step 2 (R217) or the mode is emulated (R375), nor DORMANT. -/
def State.pclkOn (s : State) : Bool :=
  s.mode.emul.isSome ||
    match s.modeNow with
    | 1 => !(s.boot.phase == .inReset || s.boot.phase == .started || s.boot.phase == .eclkLocked
        || s.boot.phase == .pclkLocked)
    | 2 | 3 | 5 => true
    | 4 => decide (2 ≤ s.mode.resumeStep)
    | _ => false
/-- The blocks that partners see work: PCLK runs, HOLD or DORMANT entry has not reached its step 4 (R214), emulated or not
(R375), and a resume has reached its step 3. -/
def State.linkOn (s : State) : Bool :=
  s.pclkOn && decide (s.mode.entryStep < 4) && s.modeNow != 0 && (s.modeNow != 4 || decide (3 ≤ s.mode.resumeStep))
/-- ECLK and CCLK are halved. -/
def State.halved (s : State) : Bool := s.flag F.SYS_CLK_STATUS_HALF
/-- ECLK and CCLK periods in VCO periods. -/
def State.eclkPer (s : State) : Nat := if s.halved then 8 else 4
def State.cclkPer (s : State) : Nat := if s.halved then 12 else 6
def State.perOf (s : State) : Ctx → Nat
  | .cc => s.cclkPer
  | .se _ => s.eclkPer
/-- CYCLE at time `t` (R80); it goes on at the new rate when the clocks change (R206). -/
def State.cycleAt (s : State) (t : Nat) : Word := w32 (s.cycBase + (t - s.cycT0) / s.eclkPer)
/-- Both dividers change together; CYCLE keeps its count (R206). -/
def State.setHalf (s : State) (half : Bool) : State :=
  let b := s.cycBase + (s.now - s.cycT0) / s.eclkPer
  { s.put F.SYS_CLK_STATUS_HALF (if half then 1 else 0) with cycBase := b, cycT0 := s.now }

/-- The four HEAD indices, and helpers over them. -/
def heads4 : List Nat := [0, 1, 2, 3]

/-! ### Byte memory -/

/-- What an unlisted byte reads as: boot ROM words belong to the ROM version except those of R395; every other memory is
zero, as the boot march leaves it (R56 step 4, R245). -/
def romWordAt (a : Nat) : Word :=
  if a = 0xFBFC then 0xFC000000
  else if 0xFC04 ≤ a ∧ a < 0xFC30 ∨ 0xFC80 ≤ a ∧ a < 0xFE80 then Config.romWord a &&& 0xFFFC
  else Config.romWord a
def memDefault (k : Nat) : Byte :=
  if k < 0x10000 then BitVec.ofNat 8 ((romWordAt (k / 4 * 4)).toNat >>> (8 * (k % 4))) else 0

def State.inUndef (s : State) (k : Nat) : Bool := s.undef.any fun p => decide (p.1 ≤ k ∧ k < p.2)

/-- Take byte `k` out of the lost ranges: it has been written. -/
def punch (k : Nat) : List (Nat × Nat) → List (Nat × Nat)
  | [] => []
  | (a, b) :: t =>
    if a ≤ k ∧ k < b then
      (if a < k then [(a, k)] else []) ++ (if k + 1 < b then [(k + 1, b)] else []) ++ punch k t
    else (a, b) :: punch k t

/-- The stored byte, uncorrected. -/
def State.rawByte (s : State) (k : Nat) : Byte := tabGet memDefault s.mem k

/-- Outcome of error control on one byte or access. -/
inductive Ecc where
  | clean
  | corr
  | uncorr
  deriving DecidableEq, Repr

def Ecc.worst : Ecc → Ecc → Ecc
  | .uncorr, _ => .uncorr
  | _, .uncorr => .uncorr
  | .corr, _ => .corr
  | _, e => e

/-- The five check bits of a byte (R236). -/
def checkBits (d : Byte) : BitVec 5 :=
  let b := fun i => d.getLsbD i
  let x := fun p q => xor p q
  let c0 := x (x (x (x (b 0) (b 1)) (b 3)) (b 4)) (b 6)
  let c1 := x (x (x (x (b 0) (b 2)) (b 3)) (b 5)) (b 6)
  let c2 := x (x (x (b 1) (b 2)) (b 3)) (b 7)
  let c3 := x (x (x (b 4) (b 5)) (b 6)) (b 7)
  let all := x (x (x (x (x (x (x (b 0) (b 1)) (b 2)) (b 3)) (b 4)) (b 5)) (b 6)) (b 7)
  let c4 := x all (x (x c0 c1) (x c2 c3))
  BitVec.ofNat 5 ((if c0 then 1 else 0) + (if c1 then 2 else 0) + (if c2 then 4 else 0) + (if c3 then 8 else 0)
    + (if c4 then 16 else 0))

/-- The data bit at a Hamming position (R236), if the position holds one. -/
def hammingBit : Nat → Option Nat
  | 3 => some 0 | 5 => some 1 | 6 => some 2 | 7 => some 3
  | 9 => some 4 | 10 => some 5 | 11 => some 6 | 12 => some 7
  | _ => none

/-- The parity of a mask of check bits. -/
def parity5 (m : BitVec 5) : Bool :=
  xor (xor (xor (xor (m.getLsbD 0) (m.getLsbD 1)) (m.getLsbD 2)) (m.getLsbD 3)) (m.getLsbD 4)

/-- Judge a stored byte by its stored check bits (R236). -/
def judge (d : Byte) (check : BitVec 5) : Byte × Ecc :=
  let syn := (checkBits d ^^^ check).toNat % 16
  let p := xor (parity5 check) (parity5 ⟨d.toNat % 32, by omega⟩ ^^ parity5 ⟨d.toNat / 32 % 8, by omega⟩)
  if syn = 0 then (d, if p then .corr else .clean)
  else if !p then (d, .uncorr)
  else if 12 < syn then (d, .uncorr)
  else match hammingBit syn with
    | some i => (d ^^^ BitVec.ofNat 8 (2 ^ i), .corr)
    | none => (d, .corr)

/-- The bits of the 13 stored for byte k that a failing cell inverts now (R244): data in bits 7 to 0, check bits above. Whether a
failing cell is wrong with the data stored is a free value. -/
def State.cellErr (s : State) (k : Nat) : BitVec 13 :=
  let d := s.rawByte k
  s.boot.cells.foldl (fun m c => if c.1 = k ∧ Config.cellWrong k c.2.val d then m ||| BitVec.ofNat 13 (2 ^ c.2.val) else m) 0

/-- One byte as error control delivers it. DRAM carries no error control (R394). -/
def State.eccByte (s : State) (k : Nat) : Byte × Ecc :=
  if s.inUndef k then
    (Config.undefByte s.freeCtr k,
      match (Config.undefEcc s.freeCtr k).toNat with | 0 => .clean | 1 => .corr | _ => .uncorr)
  else
    let d := s.rawByte k
    let x := s.cellErr k
    match tabGet (dflt 0) s.ecc k ^^^ (x >>> 8).setWidth 5, x.setWidth 8 with
    | 0, 0 => (d, .clean)
    | m, e => judge (d ^^^ e) (checkBits d ^^^ m)

/-- `n` bytes from key `k`, corrected, with the worst outcome (R237, R239). -/
def State.eccBytes (s : State) (k : Nat) : Nat → List Byte × Ecc
  | 0 => ([], .clean)
  | n + 1 =>
    let b := s.eccByte k
    let r := s.eccBytes (k + 1) n
    (b.1 :: r.1, b.2.worst r.2)

/-- Store one byte with fresh check bits. -/
def State.putByte (s : State) (k : Nat) (b : Byte) : State :=
  { s with mem := tabSet memDefault s.mem k b, ecc := tabSet (dflt 0) s.ecc k 0,
           undef := if s.inUndef k then punch k s.undef else s.undef }

/-- Clear every reservation on the word at key `k` (R101: a store to the reserved word by any master). -/
def State.clearResv (s : State) (p : Nat → Bool) : State :=
  let s := if s.cc.resv.any p then { s with cc := { s.cc with resv := none } } else s
  s.eng.foldl (fun t x => if x.2.resv.any p then t.modEngine x.1 fun c => { c with resv := none } else t) s

/-- Store bytes from key `k` on. -/
def State.putRaw (s : State) (k : Nat) : List Byte → State
  | [] => s
  | b :: bs => (s.putByte k b).putRaw (k + 1) bs

/-- Store bytes and clear the reservations on the words they touch. -/
def State.putBytes (s : State) (k : Nat) (bs : List Byte) : State :=
  (s.putRaw k bs).clearResv fun a => decide (a / 4 * 4 + 3 ≥ k ∧ a / 4 * 4 < k + bs.length)

/-- A word read straight from memory, uncorrected: for the loader and the sequencers' own copies. -/
def State.rawWord (s : State) (k : Nat) : Word :=
  w32 (leNat [s.rawByte k, s.rawByte (k + 1), s.rawByte (k + 2), s.rawByte (k + 3)])
def State.putWord (s : State) (k : Nat) (w : Word) : State := s.putBytes k (leBytes 4 w.toNat)

/-! ### Keys of the on-chip memories -/

def ridgeKey (p : Nat) : Nat := 0x20000000 + 0x100000 * (p / 64) + 0x10000 * (p / 8 % 8)
def privKey (p : Nat) : Nat := 0x20080000 + 0x100000 * (p / 64) + 0x1000 * (p % 64)
def imemKey (p : Nat) : Nat := 0x100000000 + 0x2000 * p
/-- Pixel x of slot s of ring r of head h in the line store (R10). -/
def ringKey (h r sl x : Nat) : Nat := 0x30000000 + 0x60000 * h + 0x14000 * r + 0x2800 * sl + 4 * x

/-- Zero every byte of the ranges: drop what the table lists there, with its check bits. -/
def State.clearKeys (s : State) (p : Nat → Bool) : State :=
  { s with mem := tabKeep (fun k => !p k) s.mem, ecc := tabKeep (fun k => !p k) s.ecc }

/-- The ECC class of a key (R239); none for DRAM and ROM. -/
def classOf (k : Nat) : Option Nat :=
  if k < 0x10000 then none
  else if 0x100000 ≤ k ∧ k < 0x140000 then some 4
  else if 0x140000 ≤ k ∧ k < 0x160000 then some 5
  else if 0x10000000 ≤ k ∧ k < 0x10800000 then some 0
  else if 0x20000000 ≤ k ∧ k < 0x21000000 then (if k % 0x100000 < 0x80000 then some 1 else some 2)
  else if 0x30000000 ≤ k ∧ k < 0x30180000 then some 6
  else if 0x40000000 ≤ k ∧ k < 0x40180000 then some 7
  else if 0x100000000 ≤ k then some 3
  else none

/-- Count and record what a reader found (R239, R237). `reader` is the code of STORE_UE_INFO. -/
def State.noteEcc (s : State) (reader k addr : Nat) (e : Ecc) : State :=
  match classOf k, e with
  | some c, .corr => (s.satUp (F.STORE_ECC_CNT_CE c)).on F.STORE_STATUS_CE
  | some c, .uncorr =>
    let s := ((s.satUp (F.STORE_ECC_CNT_UE c)).on F.STORE_STATUS_UE)
    let s := { s with store := { s.store with ueCount := s.store.ueCount + 1 } }
    if s.flag F.STORE_UE_INFO_VALID then s.on F.STORE_UE_INFO_OVF
    else (((s.on F.STORE_UE_INFO_VALID).put F.STORE_UE_INFO_READER reader).put F.STORE_UE_INFO_CLASS c).wr
      R.STORE_UE_ADDR (w32 addr)
  | _, _ => s

/-- Read `n` bytes as reader `reader`, errors counted and free values drawn. -/
def State.readAs (s : State) (reader addr k n : Nat) : (List Byte × Ecc) × State :=
  let r := s.eccBytes k n
  let s' := s.noteEcc reader k addr r.2
  (r, if s.undef.any (fun p => decide (p.1 < k + n ∧ k < p.2)) then { s' with freeCtr := s'.freeCtr + 1 } else s')

/-! ### Store banks -/

def bankOf (a : Nat) : Nat := (a - 0x10000000) / 0x80000
def inStore (a : Nat) : Bool := decide (0x10000000 ≤ a ∧ a < 0x10800000)
def State.inDram (s : State) (a n : Nat) : Bool := decide (0x80000000 ≤ a ∧ a + n ≤ 0x80000000 + s.boot.dramBytes)

/-- The bank's STORE_PWR state is ON and it is not coming ON (R235). -/
def State.bankOn (s : State) (b : Nat) : Bool :=
  bitsOf (s.rd R.STORE_PWR) (2 * b) 2 == 0 && !(natBit (s.get F.STORE_PWR_STATUS_COMING) b)

/-- Whether an owner code covers a requester's code (R228). -/
def covers (owner req : Nat) : Bool :=
  owner == req || (owner == 0x1C && decide (0x18 ≤ req ∧ req ≤ 0x1B))

/-- What a target makes of an access. -/
inductive Acc where
  /-- granted, at this memory key -/
  | ok (key : Nat)
  /-- refused, with ECAUSE.SUB (R119) -/
  | bus (sub : Nat)
  /-- held until the bank's hand-over ends (R230 step 3) -/
  | held (bank : Nat)
  deriving DecidableEq, Repr

/-- An owner-port access to Store by requester code `req` (R229, R230, R235). -/
def State.ownerPort (s : State) (req a : Nat) : Acc :=
  let b := bankOf a
  if !s.bankOn b then .bus 1
  else if covers (s.get (F.STORE_OWNER_OWNER b)) req then
    (if s.flag (F.STORE_OWNER_BUSY b) then .held b else .ok a)
  else .bus 2

/-- Record an owner-port refusal (R229); OWNREF sets for every refusal under that rule (R246). -/
def State.noteOwner (s : State) (req a : Nat) (write : Bool) : State :=
  let s' := s.on F.STORE_STATUS_OWNREF
  if s.flag F.STORE_ACC_ERR_VALID then s'.on F.STORE_ACC_ERR_OVF
  else ((((s'.on F.STORE_ACC_ERR_VALID).put F.STORE_ACC_ERR_REQ req).put F.STORE_ACC_ERR_OWNER
      (s.get (F.STORE_OWNER_OWNER (bankOf a)))).put F.STORE_ACC_ERR_WRITE (if write then 1 else 0)).put
      F.STORE_ACC_ERR_BANK (bankOf a) |>.wr R.STORE_ACC_ADDR (w32 a)

/-- A refusal of a Store access, recorded when ownership is the reason. -/
def State.noteAcc (s : State) (req a : Nat) (write : Bool) : Acc → State
  | .bus 2 => s.noteOwner req a write
  | _ => s

/-- The check bits of the lowest byte of an owner-port write are corrupted by an armed injection (R241). -/
def State.inject (s : State) (k : Nat) : State :=
  if s.flag F.STORE_ECC_INJ_INJ && inStore k && bankOf k == s.get F.STORE_ECC_INJ_BANK then
    { s.off F.STORE_ECC_INJ_INJ with
      ecc := tabSet (dflt 0) s.ecc k (BitVec.ofNat 5 (s.get F.STORE_ECC_INJ_MASK)) }
  else s

/-- Write bytes through a port that can be injected on. -/
def State.storeBytes (s : State) (k : Nat) (bs : List Byte) : State := (s.putBytes k bs).inject k

/-- First byte of the bank that holds the last byte of an access. -/
def lastBank (a n : Nat) : Nat := 0x10000000 + 0x80000 * bankOf (a + n - 1)

/-- An owner-port access of `n` bytes, at most one bank's size: every bank that it touches must grant it, and one refusal
refuses it whole (log 120). -/
def State.ownerSpan (s : State) (req a n : Nat) : Acc :=
  if bankOf (a + n - 1) = bankOf a then s.ownerPort req a
  else match s.ownerPort req a, s.ownerPort req (lastBank a n) with
    | .bus k, _ => .bus k
    | _, .bus k => .bus k
    | .held b, _ => .held b
    | _, .held b => .held b
    | x, _ => x

/-- The address that a refusal of it records: its first byte in the bank that refuses. -/
def State.refusedAt (s : State) (req a n : Nat) : Nat :=
  match s.ownerPort req a with
  | .bus _ => a
  | _ => if bankOf (a + n - 1) = bankOf a then a else lastBank a n

/-- Store or DRAM for a block master with owner code `req` (Sirocco, cameras, head fetch, MACs): nothing else is reached. -/
def State.blockPort (s : State) (req a n : Nat) : Acc :=
  if inStore a && inStore (a + n - 1) then s.ownerSpan req a n
  else if s.inDram a n then .ok a
  else .bus 1

/-- What a block master's access that is not granted leaves: a refusal recorded, or the mark that a hand-over holds it. -/
def State.noteBlock (s : State) (req a n : Nat) (write : Bool) : Acc → State
  | .held _ => { s with blocked := true }
  | x => s.noteAcc req (s.refusedAt req a n) write x

/-- Head fetch, camera, Sirocco or MAC read of `n` bytes: data, outcome and the state with refusals and errors noted. -/
def State.blockRead (s : State) (req reader a n : Nat) : Option (List Byte × Ecc) × State :=
  match s.blockPort req a n with
  | .ok k => let r := s.readAs reader a k n
             (some r.1, r.2)
  | x => (none, s.noteBlock req a n false x)

/-- The same for a write; `false` in the first place says it was not made. -/
def State.blockWrite (s : State) (req a : Nat) (bs : List Byte) : Bool × State :=
  match s.blockPort req a bs.length with
  | .ok k => (true, s.storeBytes k bs)
  | x => (false, s.noteBlock req a bs.length true x)

/-- `t` is what the command held as `i` makes of `s`, unless a hand-over has held one of its accesses, or an earlier command of the
same block still waits: then it waits, and is run again, whole, when the hand-over ends (R230, log 131). -/
def State.orHeld (s : State) (same : Held → Bool) (i : Held) (t : State) : State :=
  if t.blocked && !s.blocked || s.waiting.any same then { s with waiting := s.waiting ++ [i] } else t

/-- What is held of Sirocco, of camera n, of one direction of MAC n, and of the PCIe host's BAR 0: each block's accesses keep their
order behind one that a hand-over holds. -/
def isBlit : Held → Bool
  | .blit _ | .blitRow => true
  | _ => false
def isCamera (n : Nat) : Held → Bool
  | .frameStart m .. | .csiLine m .. | .frameEnd m .. | .frameDone m => m.val == n
  | _ => false
def isMacTx (n : Nat) : Held → Bool
  | .macTx m => m.val == n
  | _ => false
def isMacRx (n : Nat) : Held → Bool
  | .macRx m .. => m.val == n
  | _ => false
def isHost : Held → Bool
  | .host .. => true
  | _ => false

/-- A block that stops makes no access that it still waits for. -/
def State.dropHeld (s : State) (same : Held → Bool) : State :=
  { s with waiting := s.waiting.filter fun i => !same i }

/-! ### The array's error record (R54) -/

/-- Record a refused array access in ARRAY_ERR_INFO and ARRAY_ERR_ADDR. -/
def State.arrayErr (s : State) (req kind engine addr : Nat) : State :=
  if s.flag F.ARRAY_ERR_INFO_VALID then s.on F.ARRAY_ERR_INFO_OVF
  else (((s.on F.ARRAY_ERR_INFO_VALID).put F.ARRAY_ERR_INFO_REQ req).put F.ARRAY_ERR_INFO_KIND kind).put
    F.ARRAY_ERR_INFO_ENGINE engine |>.wr R.ARRAY_ERR_ADDR (w32 addr)

/-! ### Fence events (R151) -/

/-- Fence event `src` (and, for 0x10, face slot `slot`) occurs: every armed fence that selects it signals. -/
def State.fenceEvent (s : State) (src slot : Nat) : State :=
  s.forEach 4 fun h s => s.forEach 8 fun l s =>
    match (s.layer h l).fence with
    | some f => if f.src == src && (src != 0x10 || f.slot == slot) then s.on (F.HEAD_L_FLIPSTAT_SIGNALLED h l) else s
    | none => s

end Sys2Proof.Machine
end

