-- ==== Sys2Proof/Machine/UnitOps.lean ====
section
/-! DEFINITION. The unit tree and its task network: queues, doorbells, forwarding, completion, parking and starting
(R23 to R41, R49, R53, R70, R189, R396), and the dispatcher's clean-up of a head (R39, R397). -/

namespace Sys2Proof.Machine

/-! ### Shape of the tree -/

def State.unitList (s : State) : List (Nat × UnitSt) := s.units.filterMap fun x => x.2.map fun u => (x.1, u)

/-- Children of a caravan by CHILD_INDEX. -/
def State.children (s : State) (u : Nat) : List (Nat × UnitSt) :=
  if u = 0 then [] else
  let cs := s.unitList.filter fun x => x.2.parent == u
  (List.range cs.length).filterMap fun i => cs.find? fun x => x.2.childIndex == i

def State.childAt (s : State) (u i : Nat) : Option Nat :=
  if u = 0 then none else (s.unitList.find? fun x => x.2.parent == u && x.2.childIndex == i).map (·.1)

/-- A unit and all its descendants. -/
def State.subtree (s : State) : Nat → Nat → List Nat
  | 0, _ => []
  | n + 1, u => u :: ((s.children u).map (·.1)).flatMap (s.subtree n)
def State.family (s : State) (u : Nat) : List Nat := s.subtree (s.units.length + 1) u

/-- Logical engines of a unit's leaves. -/
def State.leavesOf (s : State) (u : Nat) : List Nat :=
  (s.family u).filterMap fun v => (s.unit? v).bind fun x => if x.policy = 0 then some x.engine else none
def State.lowestLeaf (s : State) (u : Nat) : Nat := (s.leavesOf u).foldl min 1023

/-- The unit whose leaf a logical engine is. -/
def State.unitOfEngine (s : State) (e : Nat) : Option Nat :=
  (s.unitList.find? fun x => x.2.policy == 0 && x.2.engine == e && (s.engine e).ctxid == w32 x.1).map (·.1)
def State.rootOf (s : State) : Nat → Nat → Nat
  | 0, u => u
  | n + 1, u => match s.unit? u with
    | some x => if x.parent = 0 then u else s.rootOf n x.parent
    | none => u
def State.root (s : State) (u : Nat) : Nat := s.rootOf (s.units.length + 1) u
/-- A unit and its ancestors. -/
def State.upward (s : State) : Nat → Nat → List Nat
  | 0, _ => []
  | n + 1, u => match s.unit? u with
    | some x => u :: (if x.parent = 0 then [] else s.upward n x.parent)
    | none => []
def State.ancestry (s : State) (u : Nat) : List Nat := s.upward (s.units.length + 1) u

/-- Whether a unit is used by the variant in force (R69 USE). -/
def State.usedIn (x : UnitSt) (prof : Nat) (lean : Bool) : Bool := natBit x.use (if lean then 8 + prof else prof)
def State.usedNow (s : State) (x : UnitSt) : Bool :=
  State.usedIn x (s.get F.CFG_PROFILE_STATUS_ACTIVE) s.prof.leanActive

/-- The valid root entry (R137) of head h whose layer is l: its ring. -/
def State.ringOfLayer (s : State) (h l : Nat) : Option Nat :=
  [0, 1, 2, 3].find? fun r => s.flag (F.ARRAY_ROOT_VALID (4 * h + r)) && s.get (F.ARRAY_ROOT_LAYER (4 * h + r)) == l
def State.ringRoot (s : State) (h r : Nat) : Nat := s.get (F.ARRAY_ROOT_UNIT (4 * h + r))
/-- The root entry that names a unit: (head, ring). -/
def State.entryOfRoot (s : State) (u : Nat) : Option (Nat × Nat) :=
  ((List.range 16).find? fun n => s.flag (F.ARRAY_ROOT_VALID n) && s.get (F.ARRAY_ROOT_UNIT n) == u).map
    fun n => (n / 4, n % 4)
def State.isLiveRoot (s : State) (u : Nat) : Bool := (s.entryOfRoot u).isSome

/-! ### Task words (R29) -/

def Task.isLine (t : Task) : Bool := bitsOf t.mb0 28 4 == 1
def Task.headNo (t : Task) : Nat := bitsOf t.mb0 26 2
def Task.ring (t : Task) : Nat := bitsOf t.mb0 21 2
def Task.slot (t : Task) : Nat := bitsOf t.mb0 18 3
def Task.line (t : Task) : Nat := bitsOf t.mb0 0 12
def Task.x0 (t : Task) : Nat := bitsOf t.mb1 0 16
def Task.x1 (t : Task) : Nat := bitsOf t.mb1 16 16

/-- The span a SPLIT_X child receives (R30): its range cut to the task's. -/
def cutSpan (x : UnitSt) (t : Task) : Nat × Nat := (max x.x0 t.x0, min x.x1 t.x1)

/-- Children that are to receive a task, by the caravan's policy (R30, R31). -/
def State.recipients (s : State) (u : Nat) (x : UnitSt) (t : Task) : List Nat :=
  let cs := s.children u
  let all := cs.map fun c => c.2.childIndex
  match x.policy with
  | 1 => if t.isLine then (cs.filter fun c => decide ((cutSpan c.2 t).1 < (cutSpan c.2 t).2)).map fun c => c.2.childIndex
         else all
  | 2 => if t.isLine then (if x.nchild = 0 then [] else [t.line % x.nchild]) else all
  | 3 => all
  | 4 => if x.nchild = 0 then [] else [0]
  | _ => []

/-- A task's copy for one child (R30). -/
def childCopy (p : Nat) (px c : UnitSt) (t : Task) : Task :=
  let sp := cutSpan c t
  { t with mb1 := if px.policy = 1 ∧ t.isLine then w32 (sp.2 * 65536 + sp.1) else t.mb1,
           src := .parent p, wait := [], togo := [] }

/-! ### Queues -/

/-- Wake a sleeping engine: the instruction after WAIT issues 4 ECLK later (R40). Parked and halted engines sleep on. -/
def State.wakeEngine (s : State) (e : Nat) : State :=
  let c := s.engine e
  if c.asleep && !c.parked && !c.halted then
    s.setEngine e { c with asleep := false, ready := max c.ready s.now + 4 * s.eclkPer }
  else s

/-- Put a task at the end of a unit's queue, which has room. -/
def State.enqueue (s : State) (u : Nat) (t : Task) : State :=
  match s.unit? u with
  | none => s
  | some x =>
    let rs := s.recipients u x t
    let t := if x.policy = 0 then { t with wait := [], togo := [] } else { t with wait := rs, togo := rs }
    let s := s.setUnit u (some { x with queue := x.queue ++ [t] })
    if x.policy = 0 then s.wakeEngine x.engine else s

/-! ### Completion -/

/-- What a completed line task brings: the diverse capture of R189. -/
def State.diverseCapture (s : State) (u : Nat) (t : Task) (v : Word) : State :=
  if t.isLine && bitsOf t.mb2 16 16 == bitsOf (s.rd (R.HEAD_FRAME t.headNo)) 0 16 then
    s.forEach 16 fun n s =>
      let w := (s.head t.headNo).win n
      if bitsOf w.ctrl 0 12 == u && u != 0 && bitsOf w.rectB 16 12 == t.line + 1 then
        s.modWin t.headNo n fun w => { w with div := some v }
      else s
  else s

/-- What a completed software task brings to a unit with a face slot (R53, R151). -/
def State.mailbox (s : State) (x : UnitSt) (t : Task) : State :=
  match x.slot with
  | some sl => if t.isLine then s
               else (s.onBit (F.ARRAY_MBX_PEND_BITS (sl / 32)) (sl % 32)).fenceEvent 0x10 sl
  | none => s

/-- A child of p has completed its copy of task `tid` (R30: PIPE hands on to the next child). -/
def markChild (px : UnitSt) (i tid : Nat) : UnitSt :=
  { px with queue := px.queue.map fun t =>
      if t.tid = tid then
        (if px.policy = 4 ∧ i + 1 < px.nchild then { t with wait := [i + 1], togo := [i + 1] }
         else { t with wait := t.wait.filter (· != i) })
      else t }

/-- Remove the oldest task of unit u with result v and report it (R27, R28, R38); answers the parent to look at. -/
def State.finishOldest (s : State) (u : Nat) (v : Word) : State × Option Nat :=
  match s.unit? u with
  | none => (s, none)
  | some x =>
    match x.queue with
    | [] => (s, none)
    | t :: q =>
      let s := s.setUnit u (some { x with queue := q, result := v })
      let s := (s.mailbox x t).diverseCapture u t v
      match t.src with
      | .outside => (s, none)
      | .dispatcher h r =>
        (s.modHead h fun z => { z with
          outstanding := z.outstanding.filter fun o => !(o.2.2 == t.tid),
          doneLines := if t.discard || bitsOf t.mb2 16 16 != bitsOf (s.rd (R.HEAD_FRAME h)) 0 16 then z.doneLines
            else (r, t.line) :: z.doneLines }, none)
      | .parent p => (s.modUnit p fun px => markChild px x.childIndex t.tid, some p)

/-- The result child's FACE_RESULT as it stands (R28). -/
def State.resultOf (s : State) (u : Nat) (x : UnitSt) : Word :=
  match (s.childAt u x.resultChild).bind s.unit? with
  | some c => c.result
  | none => 0

/-- Complete, in queue order, every caravan task whose children have all completed, upwards through the tree. -/
def State.settle : Nat → State → List Nat → State
  | 0, s, _ => s
  | _, s, [] => s
  | n + 1, s, u :: us =>
    match s.unit? u with
    | none => State.settle n s us
    | some x =>
      match x.queue with
      | [] => State.settle n s us
      | t :: _ =>
        if x.policy != 0 && t.wait.isEmpty && t.togo.isEmpty then
          let r := s.finishOldest u (s.resultOf u x)
          State.settle n r.1 (u :: (r.2.toList ++ us))
        else State.settle n s us
def State.settleFrom (s : State) (us : List Nat) : State := State.settle (64 + 20 * s.units.length) s us

/-- A unit's own engine completes its oldest task (R27). -/
def State.completeTask (s : State) (u : Nat) (v : Word) : State :=
  let r := s.finishOldest u v
  r.1.settleFrom r.2.toList

/-- Ring a face: copy the four mailbox words into the queue (R26). `req` is the requester code of ARRAY_ERR_INFO, and
`addr` what ARRAY_ERR_ADDR records. The dispatcher alone may ring a live root. -/
def State.ring (s : State) (u req addr : Nat) (src : Queuer) : State :=
  match s.unit? u with
  | none => s
  | some x =>
    if req != 3 && s.isLiveRoot u then s.arrayErr req 4 (s.lowestLeaf u) addr
    else if 8 ≤ x.queue.length then
      (s.arrayErr req 5 (s.lowestLeaf u) addr).on F.ARRAY_STATUS_QFULL
    else
      let t : Task := { mb0 := x.mb0, mb1 := x.mb1, mb2 := x.mb2, mb3 := x.mb3, tid := s.nextTid, src := src }
      ({ s with nextTid := s.nextTid + 1 }.enqueue u t).settleFrom [u]

/-- Deliver the next copy that waits for child `i` of caravan `u`, if the child's queue has room (R396). -/
def State.forward (s : State) (u i : Nat) : State :=
  match s.unit? u, s.childAt u i with
  | some x, some c =>
    match x.queue.find? (fun t => t.togo.contains i), s.unit? c with
    | some t, some cx =>
      if 8 ≤ cx.queue.length then s
      else
        let s := s.setUnit u (some { x with queue := x.queue.map fun q =>
          if q.tid = t.tid then { q with togo := q.togo.filter (· != i) } else q })
        (s.enqueue c (childCopy u x cx t)).settleFrom [c]
    | _, _ => s
  | _, _ => s

/-! ### Clean-up of a head (R39, R397) -/

/-- A leaf has started its oldest task when its engine runs: neither asleep, nor parked. -/
def State.runsTask (s : State) (e : Nat) : Bool :=
  let c := s.engine e
  c.started && !c.asleep && !c.parked

/-- Remove what no engine has started from one unit's queue; what has started stays and its ring writes are discarded. -/
def State.dropUnstarted (s : State) (started : List Nat) (u : Nat) : State :=
  s.modUnit u fun x =>
    if x.policy = 0 then
      { x with queue := (x.queue.take 1).filterMap fun t =>
          if s.runsTask x.engine then some { t with discard := true } else none }
    else
      { x with queue := x.queue.filterMap fun t =>
          if started.contains t.tid then some { t with discard := true, togo := [] } else none }

/-- After the removal a caravan waits only for children that still hold the copy. -/
def State.retargetWaits (s : State) (u : Nat) : State :=
  s.modUnit u fun x =>
    if x.policy = 0 then x
    else
      let holders := fun (t : Task) => (s.children u).filterMap fun c =>
        if c.2.queue.any (fun q => q.tid == t.tid) then some c.2.childIndex else none
      { x with queue := x.queue.map fun t => { t with wait := holders t } }

/-- R39 for the tree under one root. -/
def State.cleanTree (s : State) (u : Nat) : State :=
  let fam := s.family u
  let started := fam.filterMap fun v => (s.unit? v).bind fun x =>
    if x.policy = 0 && s.runsTask x.engine then x.queue.head?.map (·.tid) else none
  let s := fam.foldl (fun t v => t.dropUnstarted started v) s
  fam.foldl (fun t v => t.retargetWaits v) s

/-- Clear every slot of a head's rings. -/
def State.clearRings (s : State) (h : Nat) : State :=
  s.clearKeys fun k => decide (0x30000000 + 0x60000 * h ≤ k ∧ k < 0x30000000 + 0x60000 * h + 0x50000)

/-- The dispatcher's action at an abort or a stop (R39, R397); a clone has no rings. Tasks that have started stay outstanding
until they complete. -/
def State.dispatcherClean (s : State) (h : Nat) : State :=
  let s := (List.range 4).foldl (fun t r =>
    if t.flag (F.ARRAY_ROOT_VALID (4 * h + r)) then t.cleanTree (t.ringRoot h r) else t) s
  let left := (List.range 4).flatMap fun r =>
    if s.flag (F.ARRAY_ROOT_VALID (4 * h + r)) then
      match s.unit? (s.ringRoot h r) with
      | some x => x.queue.map (·.tid)
      | none => []
    else []
  (s.clearRings h).modHead h fun x =>
    { x with outstanding := x.outstanding.filter fun o => left.contains o.2.2, doneLines := [], slots := [] }

/-! ### Starting and parking leaves (R49, R70) -/

/-- An engine starts at ENTRY (R70): registers, loop counters and special registers zero, STATUS 2. A halted leaf starts
still halted (R362), and a HALT that waits for a boundary still waits. -/
def State.startLeaf (s : State) (u : Nat) (x : UnitSt) : State :=
  let old := s.engine x.engine
  s.setEngine x.engine
    { pc := w32 (4 * x.entry), ctxid := w32 u, split := x.split, faultPark := x.faultPark, actHalf := old.actHalf,
      started := true, parked := false, halted := old.halted, haltReq := old.haltReq, reason := old.reason, ready := s.now }

/-- The engine of a leaf exists: it is not fenced without a spare (R50, R52). -/
def State.hasEngine (s : State) (x : UnitSt) : Bool :=
  !(s.boot.fenced.contains (s.physOf x.engine)) && !(s.boot.lostLogical.contains x.engine)

/-- The program that the variant which its head shows binds to leaf u stands in it: during a switch (R74) a leaf of a head that
has switched has the new variant's, and one that waits for a reload has none. -/
def State.programmed (s : State) (u : Nat) : Bool := s.prof.bound.any fun b => b.unit == u

/-- Whether an engine may be started: it exists, and its unit is used by what its head shows. -/
def State.startable (s : State) (u : Nat) (x : UnitSt) : Bool := s.programmed u && s.hasEngine x

/-- Park one engine, keeping why (R41). -/
def State.parkEngine (s : State) (e : Nat) (f : CoreSt → CoreSt) : State :=
  s.modEngine e fun c => f { c with parked := true, asleep := false, stalled := none, parkReq := false }

/-- RESTART of a tree (R49): queues, FACE_FAULT and parked state cleared, each leaf started. -/
def State.restartTree (s : State) (u : Nat) : State :=
  (s.family u).foldl (fun t v =>
    match t.unit? v with
    | none => t
    | some x =>
      let t := t.setUnit v (some { x with queue := [], fault := 0 })
      if x.policy = 0 && t.startable v x then t.startLeaf v x else t) s

/-- PARK of one engine (R49): after its current instruction, so that one held inside an instruction (R14, R230) parks when that
has completed. -/
def State.cmdPark (s : State) (e : Nat) : State :=
  if (s.engine e).stalled.isSome then s.modEngine e fun c => { c with parkReq := true }
  else s.parkEngine e fun c => { c with cmdParked := true }

/-- PARK of a tree (R49). -/
def State.parkTree (s : State) (u : Nat) : State := (s.leavesOf u).foldl State.cmdPark s

/-- The tasks dispatched to a root are gone with its queues. -/
def State.forgetLines (s : State) (u : Nat) : State :=
  match s.entryOfRoot u with
  | some (h, r) => s.modHead h fun x => { x with outstanding := x.outstanding.filter fun o => o.1 != r }
  | none => s

/-- The tasks dispatched to a root that its queue no longer holds are gone. -/
def State.forgetGone (s : State) (u : Nat) : State :=
  match s.entryOfRoot u, s.unit? u with
  | some (h, r), some x => s.modHead h fun z =>
      { z with outstanding := z.outstanding.filter fun o => o.1 != r || x.queue.any fun t => t.tid == o.2.2 }
  | _, _ => s

/-- Every root of head h restarts (R49, R221). -/
def State.restartRoots (s : State) (h : Nat) : State :=
  (List.range 4).foldl (fun t r =>
    if t.flag (F.ARRAY_ROOT_VALID (4 * h + r)) then (t.restartTree (t.ringRoot h r)).forgetLines (t.ringRoot h r) else t) s

/-! ### The face as its readers see it (R25 to R28) -/

def State.faceStatus (s : State) (u : Nat) (x : UnitSt) : Word :=
  let busy := if x.policy = 0 then !x.queue.isEmpty
    else (s.children u).any fun c => c.2.queue.any fun t => t.src == .parent u
  let parked := (s.leavesOf u).any fun e => (s.engine e).parked
  w32 (x.queue.length * 2 ^ 24 + (if s.isLiveRoot u then 16 else 0) + (if parked then 8 else 0)
    + (if bitOf x.fault 31 then 4 else 0) + (if busy then 2 else 0))

/-- A read of a face word from outside the unit's own engine. -/
def State.faceRead (s : State) (u i : Nat) : Word :=
  match s.unit? u with
  | none => 0
  | some x => match i with
    | 0 => x.mb0 | 1 => x.mb1 | 2 => x.mb2 | 3 => x.mb3
    | 5 => s.faceStatus u x | 6 => x.fault | 7 => x.result
    | _ => 0

/-- A write of a face word from outside: the mailbox words and the doorbell (R26). -/
def State.faceWrite (s : State) (u i : Nat) (v : Word) (req addr : Nat) (src : Queuer) : State :=
  match i with
  | 0 => s.modUnit u fun x => { x with mb0 := v }
  | 1 => s.modUnit u fun x => { x with mb1 := v }
  | 2 => s.modUnit u fun x => { x with mb2 := v }
  | 3 => s.modUnit u fun x => { x with mb3 := v }
  | 4 => if bitOf v 0 then s.ring u req addr src else s
  | _ => s

/-- The unit with a face slot (R25). -/
def State.unitOfSlot (s : State) (sl : Nat) : Option Nat := (s.unitList.find? fun x => x.2.slot == some sl).map (·.1)

end Sys2Proof.Machine
end

