-- ==== Sys2Proof/Machine/HeadOps.lean ====
section
/-! DEFINITION. Operations on heads shared by several commands: timing, run state, stopping (R163, R168, R170, R397),
freezing (R372), the mode triggers (R209, R219) and the record of a stopped Sirocco list (R257). -/

namespace Sys2Proof.Machine

/-! ### Timing -/

/-- Timing as the registers hold it. -/
def State.timingRegs (s : State) (h : Nat) : Timing :=
  { hactive := s.get (F.HEAD_HTIM_A_HACTIVE h), hfp := s.get (F.HEAD_HTIM_A_HFP h),
    hsync := s.get (F.HEAD_HTIM_B_HSYNC h), hbp := s.get (F.HEAD_HTIM_B_HBP h),
    vactive := s.get (F.HEAD_VTIM_A_VACTIVE h), vfp := s.get (F.HEAD_VTIM_A_VFP h),
    vsync := s.get (F.HEAD_VTIM_B_VSYNC h), vbp := s.get (F.HEAD_VTIM_B_VBP h) }

def Timing.hblank (t : Timing) : Nat := t.hfp + t.hsync + t.hbp
def Timing.htotal (t : Timing) : Nat := t.hblank + t.hactive
def Timing.v (t : Timing) : Nat := t.vfp + t.vsync + t.vbp
def Timing.vtotal (t : Timing) : Nat := t.v + t.vactive

def State.running (s : State) (h : Nat) : Bool := (s.head h).phase == .running
def State.isClone (s : State) (h : Nat) : Bool := s.flag (F.HEAD_CTRL_CLONE h)
def State.clonesOf (s : State) (h : Nat) : List Nat :=
  heads4.filter fun c => c != h && s.isClone c && s.get (F.HEAD_CTRL_CLSRC c) == h && s.running c
/-- The clones that follow head h, running or still starting (R169, R170). -/
def State.followers (s : State) (h : Nat) : List Nat :=
  heads4.filter fun c => c != h && s.isClone c && s.get (F.HEAD_CTRL_CLSRC c) == h && (s.head c).phase != .stopped
/-- The head whose raster a head follows (R170). -/
def State.rasterOf (s : State) (h : Nat) : Nat := if s.isClone h then s.get (F.HEAD_CTRL_CLSRC h) else h
def State.inRefugeView (s : State) (h : Nat) : Bool := s.flag (F.HEAD_CHK_STATUS_RFGVIEW h)

/-! ### Freezing (R372) -/

/-- A leaf of the tree under ring r of head h is halted. -/
def State.ringHalted (s : State) (h r : Nat) : Bool :=
  s.flag (F.ARRAY_ROOT_VALID (4 * h + r)) && (s.leavesOf (s.ringRoot h r)).any fun e => (s.engine e).halted

/-- The ring feeds a layer that is live in force. -/
def State.ringLive (s : State) (h r : Nat) : Bool :=
  s.flag (F.ARRAY_ROOT_VALID (4 * h + r)) &&
    bitsOf (s.layer h (s.get (F.ARRAY_ROOT_LAYER (4 * h + r)))).act.srcfmt 30 2 == 1

def State.selfFrozen (s : State) (h : Nat) : Bool :=
  s.flag (F.HEAD_CTRL_FRZ h) && (s.cc.halted || heads4.any fun r => s.ringLive h r && s.ringHalted h r)
def State.frozen (s : State) (h : Nat) : Bool :=
  s.selfFrozen h || (s.flag (F.HEAD_CTRL_FRZ h) && s.isClone h && s.selfFrozen (s.get (F.HEAD_CTRL_CLSRC h)))

/-! ### Sirocco's error exit (R257) -/

def State.blitFail (s : State) (code : Nat) (addr : Word) : State :=
  let s := ((s.on F.BLIT_STATUS_ERR).put F.BLIT_ERR_INFO_CODE code).put F.BLIT_ERR_INFO_INDEX (min s.blit.index 65535)
  let s := (s.wr R.BLIT_ERR_ADDR addr).off F.BLIT_STATUS_BUSY |>.off F.BLIT_STATUS_PACEWAIT
  { s with blit := { s.blit with paced := none } }

/-! ### Stopping -/

/-- A paced command whose head has stopped ends with ERR_PACE (R256). -/
def State.blitPaceLost (s : State) (h : Nat) : State :=
  if s.blit.paced.isSome && s.get F.BLIT_PACE_HEAD == h then s.blitFail 8 (s.rd R.BLIT_CUR) else s

/-- What every stop of a head does: no raster, PHY down, PLL off, dispatcher clean-up (R168, R397). -/
def State.stopOne (s : State) (h : Nat) : State :=
  let s := (((s.off (F.HEAD_STATUS_RUN h)).off (F.HEAD_STATUS_STOPPING h)).off (F.HEAD_STATUS_PHYUP h)).off
    (F.HEAD_STATUS_PLLLOCK h)
  let s := s.modHead h fun x => { x with phase := .stopped, line := 0, hpos := 0, composed := 0, out := [], vsync := false,
                                         lvdsA := none, lvdsB := none, fastTrain := false }
  let s := if s.isClone h then s else s.dispatcherClean h
  s.blitPaceLost h

/-- A head stops; its clones stop with it and lose their source, those still starting too (R170). -/
def State.stopHead (s : State) (h : Nat) : State :=
  let cs := s.followers h
  cs.foldl (fun t c => (t.stopOne c).on (F.HEAD_EVT_STATUS_CLONELOST c)) (s.stopOne h)

/-! ### Flips dropped (R154) -/

/-- Discard every pending set of a head. -/
def State.dropFlips (s : State) (h : Nat) : State :=
  s.forEach 8 fun l s =>
    if (s.layer h l).pend.isSome then
      ((((s.modLayer h l fun y => { y with pend := none, fence := none }).off (F.HEAD_L_FLIPSTAT_PENDING h l)).off
        (F.HEAD_L_FLIPSTAT_SIGNALLED h l)).off (F.HEAD_L_FLIPSTAT_WAITED h l)).on (F.HEAD_COMP_STATUS_FLIPDROP h)
    else s

/-! ### Window ages (R190) -/

/-- Every age of head h is set: what the frame that has ended still brings leaves it alone. -/
def State.ageAll (s : State) (h : Nat) (a : Nat) : State :=
  (s.forEach 16 fun n s => s.put (F.HEAD_W_RESULT_AGE h n) a).modHead h fun x => { x with old := { x.old with aged := 0xFFFF } }

/-- Window n is enabled, or its rectangle changes, at a latch: its age is 15, whatever its last frame still brings. -/
def State.windowChanged (s : State) (h n : Nat) : State :=
  (s.put (F.HEAD_W_RESULT_AGE h n) 15).modHead h fun x => { x with old := { x.old with aged := natSetBit x.old.aged n true } }

/-- Window n of head h is in force, enabled and not bad. -/
def WinSt.live (w : WinSt) : Bool := bitOf w.ctrl 31 && !w.bad
/-- Window n of the frame that has ended, and whether its comparison is still to come (R187). -/
def OldFrame.win (o : OldFrame) (n : Nat) : WinSt := tabGet (dflt {}) o.wins n
def OldFrame.pending (o : OldFrame) (n : Nat) : Bool := (o.win n).live && !(o.win n).final
/-- Window n of the frame that has ended, or of the one in progress. -/
def HeadSt.frameWin (x : HeadSt) (old : Bool) (n : Nat) : WinSt := if old then x.old.win n else x.win n
def State.modFrameWin (s : State) (h : Nat) (old : Bool) (n : Nat) (f : WinSt → WinSt) : State :=
  if old then s.modHead h fun x =>
    { x with old := { x.old with wins := tabSet (dflt {}) x.old.wins n (f (x.old.win n)) } }
  else s.modWin h n f
/-- AGE after a frame in which window n passed, or did not, once that is known after the frame's end. -/
def State.settleAge (s : State) (h n : Nat) (pass : Bool) : State :=
  let f := F.HEAD_W_RESULT_AGE h n
  if natBit (s.head h).old.aged n then s else s.put f (if pass then 0 else min 15 (s.get f + 1))
/-- The window is stale (R190). -/
def State.stale (s : State) (h n : Nat) : Bool :=
  ((s.head h).win n).live && decide (s.get (F.HEAD_CHK_CTRL_MAXAGE h) < s.get (F.HEAD_W_RESULT_AGE h n))

/-! ### Profile switch and mode triggers -/

/-- Start a profile switch to (p, lean), or redirect the one under way (R74, R76, R77): a redirection restarts stage 1 for the heads
that have not switched, and leaves the others as they are. -/
def State.profSwitch (s : State) (p : Nat) (lean : Bool) (forMode : Option Nat) : State :=
  let on := s.prof.target.isSome
  let s := (s.on F.CFG_PROFILE_STATUS_BUSY).put F.CFG_PROFILE_STATUS_RESULT 0
  let s := if on then s else s.put F.CFG_PROFILE_STATUS_HEADSDONE 0
  { s with prof := { s.prof with target := some (p, lean), plan := none, todo := [], othersDone := false,
                                 switched := if on then s.prof.switched else [], reload := if on then s.prof.reload else [],
                                 reloaded := if on then s.prof.reloaded else [], failed := on && s.prof.failed,
                                 forMode := match forMode with | some m => some m | none => s.prof.forMode } }

/-- The profile a variant change acts on: the switch's own target, or the one in force. -/
def State.profOf (s : State) : Nat :=
  match s.prof.target with
  | some t => t.1
  | none => s.get F.CFG_PROFILE_STATUS_ACTIVE

/-- Whether a LEAN trigger is active (R209, R211). -/
def State.leanActive (s : State) : Bool :=
  s.flag F.SYS_LEAN_CAUSE_SPARE || s.flag F.SYS_STATUS_THERMLEAN || s.flag F.SYS_STATUS_THERMCRIT
    || s.flag F.SYS_STATUS_SUPWARN

/-- The rank of a mode as a target in the list of R203; 1 is highest. -/
def modeRank : Nat → Nat
  | 4 => 2 | 0 => 3 | 5 => 4 | 3 => 5 | _ => 6

/-- A transition to mode m may start now: nothing of equal or higher rank is under way (R202, R203). -/
def State.mayStart (s : State) (m : Nat) : Bool :=
  !s.flag F.SYS_MODE_TRANS || decide (modeRank m < modeRank (s.get F.SYS_MODE_TARGET))

/-- A mode change has completed (R202). -/
def State.modeDone (s : State) (m : Nat) : State :=
  ((s.put F.SYS_MODE_MODE m).off F.SYS_MODE_TRANS).on F.SYS_EVT_STATUS_MODECHG

/-- The VSEL output takes a level (R205). The regulator follows a rise only with time, so that COREPG falls until the rise has been
waited for; at a fall VDD_CORE already lies above the new level. -/
def State.vselTo (s : State) (hi : Bool) : State :=
  let was := s.mode.vsel
  let s := { s.put F.SYS_STATUS_VSEL hi.toNat with mode := { s.mode with vsel := hi } }
  if hi then (if was then s else s.off F.SYS_STATUS_COREPG) else s.on F.SYS_STATUS_COREPG

/-- The active profile's lean or normal variant is to come into force, unless it is, or is on its way (R77). -/
def State.wantVariant (s : State) (lean : Bool) : State :=
  match s.prof.target with
  | some t => if t.2 == lean then s else s.profSwitch t.1 lean none
  | none => if s.prof.leanActive == lean then s else s.profSwitch s.profOf lean none

/-- LEAN entry is complete (R210 steps 3 and 4). -/
def State.leanDone (s : State) : State :=
  let s := (s.setHalf true).vselTo false
  { s with prof := { s.prof with forMode := none } }.modeDone 3

/-! ### Leaving REFUGE (R221) -/

/-- The roots of a head that has no boundary to come restart now; the exit is complete once every head has passed. -/
def State.exitSettle (s : State) : State :=
  match s.mode.exitTo with
  | none => s
  | some m =>
    let s := (s.mode.exitHeads.filter fun h => !s.running h).foldl State.restartRoots s
    let hs := s.mode.exitHeads.filter s.running
    if hs.isEmpty then
      let s := { s with mode := { s.mode with exitTo := none, exitHeads := [] } }
      (s.wr R.SYS_REFUGE_CAUSE 0).modeDone m
    else { s with mode := { s.mode with exitHeads := hs } }

/-- Steps 2 to 4 of the way to mode m: roots restart and refuge view ends at each head's next boundary, and with no raster at
once. -/
def State.startExit (s : State) (m : Nat) : State :=
  let s := s.forEach 4 fun h s => s.modHead h fun x => { x with rfgEnter := false, rfgExit := s.inRefugeView h }
  let s := s.wantVariant (m == 3)
  { s with mode := { s.mode with exitTo := some m, exitHeads := heads4 } }.exitSettle

/-- The way out of REFUGE turns from FULL to LEAN (R203): clocks and VSEL stay at, or go back to, LEAN's values, and the lean variant
comes into force (R205, R207, R221). -/
def State.exitToLean (s : State) : State :=
  let s := ((s.put F.SYS_MODE_TARGET 3).setHalf true).vselTo false
  if s.mode.raise.isSome then { s with mode := { s.mode with raise := none } }.startExit 3
  else { s with mode := { s.mode with exitTo := some 3 } }.wantVariant true

/-! ### The triggers -/

/-- A resume to FULL turns to LEAN (R202, R203); its last step brings the clocks and VSEL down. -/
def State.resumeToLean (s : State) : State :=
  { s.put F.SYS_MODE_TARGET 3 with mode := { s.mode with prev := 3 } }.wantVariant true

/-- LEAN entry starts with R210 step 1 and runs as the profile switch of step 2. Where the lean variant is in force and no switch
runs, step 3 follows at once. -/
def State.leanStart (s : State) : State :=
  let s := (s.on F.SYS_MODE_TRANS).put F.SYS_MODE_TARGET 3
  let s := { s with mode := { s.mode with raise := none } }
  if s.prof.leanActive && s.prof.target.isNone then s.leanDone else s.profSwitch s.profOf true (some 3)

/-- A LEAN trigger with its cause field (R209). One that meets the way to FULL outranks it, and the target becomes LEAN (R203). -/
def State.leanTrigger (s : State) (f : Fld) (i : Nat) : State :=
  let s := s.onBit f i
  let toFull := s.flag F.SYS_MODE_TRANS && s.get F.SYS_MODE_TARGET == 2
  if s.modeNow == 5 && toFull then s.exitToLean
  else if s.modeNow == 4 && toFull then s.resumeToLean
  else if (s.modeNow == 2 || (toFull && s.modeNow == 3)) && s.mayStart 3 then s.leanStart
  else s

/-- Both camera receivers stop at once; the frame in progress ends with no completion (R219, R270). -/
def State.stopCameras (s : State) : State :=
  s.forEach 2 fun n s => ((s.off (F.CAM_STATUS_RUN n)).off (F.CAM_STATUS_INFRAME n)).dropHeld (isCamera n)

/-- A running Sirocco list ends with ERR_STOPPED (R257). -/
def State.stopBlit (s : State) : State :=
  if s.flag F.BLIT_STATUS_BUSY then (s.blitFail 0xB (s.rd R.BLIT_CUR)).dropHeld isBlit else s

/-- REFUGE is entered (R219), from whatever was under way. -/
def State.refugeEnter (s : State) : State :=
  let s := (s.stopBlit).stopCameras
  let s := (s.setHalf true).vselTo false
  let s := { s with prof := { s.prof with forMode := none },
                    mode := { s.mode with raise := none, exitTo := none, exitHeads := [] } }
  let s := s.modeDone 5
  s.forEach 4 fun h s => if s.running h then s.modHead h fun x => { x with rfgEnter := true, rfgExit := false } else s

/-- The supervision timer restarts, and counts while RXEN = 1 (R326). -/
def State.supRestart (s : State) : State := { s with prg := { s.prg with supRun := s.flag F.PRG_CTRL_RXEN, supAt := s.now } }

/-- What partners see resumes (R217 step 5), and the bookkeeping of HOLD is over. -/
def State.resumePartners (s : State) : State :=
  { s with aud := { s.aud with unmuted := !s.flag F.CFG_STATUS_DFLT }, prg := { s.prg with first := true },
           mode := { s.mode with resumeStep := 0, emul := none, byRequest := false, pfwSeen := false,
                                 wakePending := false } }.supRestart

/-- A REFUGE trigger with its cause (R219): it outranks an entry into FULL or LEAN, be it from BOOT, from REFUGE or a resume, and
abandons it (R202, R203). A higher transition keeps the cause latched. -/
def State.refugeTrigger (s : State) (f : Fld) : State :=
  let s := s.on f
  let m := s.modeNow
  let trans := s.flag F.SYS_MODE_TRANS
  if (m == 2 || m == 3 || ((m == 1 || m == 5) && trans)) && s.mayStart 5 then s.refugeEnter
  else if m == 4 && trans && s.mayStart 5 then s.resumePartners.refugeEnter
  else s

end Sys2Proof.Machine
end

