-- ==== Sys2Proof/Machine/Pixels.lean ====
section
/-! DEFINITION. Pixel arithmetic: formats (R141 to R143), alpha and blending (R145, R146), dither (R147), the rounding of
R107, and Sandpack (R155 to R157). -/

namespace Sys2Proof.Machine

/-- Exact division by 255 of R107. -/
def d255 (x : Nat) : Nat := (x + 128 + ((x + 128) >>> 8)) >>> 8
/-- rdiv255 of R145. -/
def rdiv255 (x : Nat) : Nat := (2 * x + 255) / 510

/-- A word from alpha and three 8-bit components (R141). -/
def argb (a r g b : Nat) : Word := w32 (a * 2 ^ 24 + r * 2 ^ 16 + g * 2 ^ 8 + b)
def pxA (w : Word) : Nat := bitsOf w 24 8
def pxR (w : Word) : Nat := bitsOf w 16 8
def pxG (w : Word) : Nat := bitsOf w 8 8
def pxB (w : Word) : Nat := bitsOf w 0 8

/-- RGB565 in its 8-bit form, alpha 255 (R142). -/
def expand565 (v : Nat) : Word :=
  let r := v / 2048 % 32
  let g := v / 32 % 64
  let b := v % 32
  argb 255 (r * 8 + r / 4) (g * 4 + g / 16) (b * 8 + b / 4)

/-- R[7:3], G[7:2], B[7:3] (R254). -/
def pack565 (w : Word) : Nat := pxR w / 8 * 2048 + pxG w / 4 * 32 + pxB w / 8

/-- Luma and chroma to 10-bit components by the matrix of CSC (R143). -/
def yuv10 (csc y cb cr : Nat) : Nat × Nat × Nat :=
  let m : Int × Int × Int × Int × Int × Int :=
    match csc with
    | 0 => (16, 1192, 1634, 401, 832, 2066)
    | 1 => (16, 1192, 1836, 218, 546, 2163)
    | _ => (0, 1024, 1613, 192, 479, 1900)
  let l := m.2.1 * ((y : Int) - m.1)
  let b := (cb : Int) - 128
  let r := (cr : Int) - 128
  let c := fun (v : Int) => (clampI 0 1023 ((v + 128) / 256)).toNat
  (c (l + m.2.2.1 * r), c (l - m.2.2.2.1 * b - m.2.2.2.2.1 * r), c (l + m.2.2.2.2.2 * b))

/-- The formats that hold luma and chroma. -/
def isYuv (fmt : Nat) : Bool := fmt == 4 || fmt == 5 || fmt == 6

/-- A native pixel of a fetch buffer as alpha and 10-bit components (R142, R143); `pal` looks an index up (R144). -/
def native10 (fmt csc : Nat) (pal : Nat → Word) (w : Word) : Nat × Nat × Nat × Nat :=
  if isYuv fmt then (255, yuv10 csc (bitsOf w 16 8) (bitsOf w 8 8) (bitsOf w 0 8))
  else
    let v := if fmt = 3 then pal (bitsOf w 0 8) else w
    (pxA v, 4 * pxR v, 4 * pxG v, 4 * pxB v)

/-- Effective alpha (R145): `g` the global alpha, `p` the pixel's, `keyed` a colour-key hit, `live` a live layer. -/
def effAlpha (mode g p : Nat) (keyed live yuv : Bool) : Nat :=
  match mode with
  | 0 => if live then rdiv255 (p * g) else g
  | 2 => if yuv then g else if keyed then 0 else g
  | _ => rdiv255 (p * g)

/-- One component blended over the result beneath (R146). -/
def blend1 (premul : Bool) (a g s d : Nat) : Nat :=
  if premul then (if a = 0 then d else min 1023 (rdiv255 (s * g) + rdiv255 (d * (255 - a))))
  else rdiv255 (s * a + d * (255 - a))

/-- The ordered matrix of R147. -/
def ditherM (x y : Nat) : Nat :=
  (([[0, 8, 2, 10], [12, 4, 14, 6], [3, 11, 1, 9], [15, 7, 13, 5]] : List (List Nat)).getD (y % 4) []).getD (x % 4) 0

/-- The output byte of one component, as the Mirage check takes it (R147, R148). -/
def outByte (depth6 dither : Bool) (x y v : Nat) : Nat :=
  let m := ditherM x y
  if depth6 then 4 * (if dither then min 63 ((v + m) / 16) else v / 16)
  else if dither then min 255 ((v + m / 4) / 4) else v / 4

/-! ### Sandpack -/

/-- Components of a format in code order: (shift, bits). -/
def sandComps (fmt : Nat) : List (Nat × Nat) :=
  if fmt = 8 then [(24, 8), (16, 8), (8, 8), (0, 8)] else [(11, 5), (5, 6), (0, 5)]
/-- Raw header code, bytes of a slot, bytes of the first pixel. -/
def sandRaw (fmt : Nat) : Nat := if fmt = 8 then 16 else 8
def sandSlot (fmt : Nat) : Nat := if fmt = 8 then 256 else 128
def sandPix (fmt : Nat) : Nat := if fmt = 8 then 4 else 2

/-- Component widths in code order from the two width bytes (R156). -/
def sandWidths (fmt b0 b1 : Nat) : List Nat :=
  if fmt = 8 then [b0 % 16, b0 / 16, b1 % 16, b1 / 16] else [b0 / 16, b0 % 16, b1 % 16]

/-- Length in bytes of a compressed block with the given widths (R156). -/
def sandLen (fmt : Nat) (ws : List Nat) : Nat := 2 + sandPix fmt + (63 * ws.sum + 7) / 8

/-- Take one pixel's codes off the bit stream: (rest of the stream, value). -/
def sandStep : List (Nat × Nat) → List Nat → Nat → Nat → Nat → Nat × Nat
  | (sh, k) :: cs, w :: ws, prev, bits, acc =>
    let z := bits % 2 ^ w
    let d := if z % 2 = 0 then z / 2 else 2 ^ k - (z + 1) / 2
    let v := (prev / 2 ^ sh % 2 ^ k + d) % 2 ^ k
    sandStep cs ws prev (bits / 2 ^ w) (acc + v * 2 ^ sh)
  | _, _, _, bits, acc => (bits, acc)

def sandPixels (cs : List (Nat × Nat)) (ws : List Nat) : Nat → Nat → Nat → List Nat
  | 0, _, _ => []
  | n + 1, prev, bits =>
    let r := sandStep cs ws prev bits 0
    r.2 :: sandPixels cs ws n r.2 r.1

/-- Decode a block from its header byte and slot bytes; `none` where R157 says it fails. -/
def sandDecode (fmt hdr : Nat) (slot : List Byte) : Option (List Nat) :=
  if hdr = 0 ∨ sandRaw fmt < hdr then none
  else if hdr = sandRaw fmt then
    some ((List.range 64).map fun i => leNat ((slot.drop (i * sandPix fmt)).take (sandPix fmt)))
  else
    let b0 := leNat (slot.take 1)
    let b1 := leNat ((slot.drop 1).take 1)
    let ws := sandWidths fmt b0 b1
    let bad := (ws.zip (sandComps fmt)).any fun p => decide (p.2.2 < p.1)
    if bad || (fmt == 9 && decide (16 ≤ b1)) || decide (16 * hdr < sandLen fmt ws) then none
    else
      let p0 := leNat ((slot.drop 2).take (sandPix fmt))
      some (p0 :: sandPixels (sandComps fmt) ws 63 p0 (leNat (slot.drop (2 + sandPix fmt))))

/-- Zig-zag code of a k-bit difference (R156). -/
def zigzag (k a b : Nat) : Nat :=
  let d := (b + 2 ^ k - a) % 2 ^ k
  if 2 * d < 2 ^ k then 2 * d else 2 * (2 ^ k - d) - 1

/-- Number of bits of the largest code. -/
def bitLen (v : Nat) : Nat := if v = 0 then 0 else Nat.log2 v + 1

/-- Codes of one component along a block. -/
def sandCodes (sh k : Nat) (px : List Nat) : List Nat :=
  (px.zip (px.drop 1)).map fun p => zigzag k (p.1 / 2 ^ sh % 2 ^ k) (p.2 / 2 ^ sh % 2 ^ k)

/-- Pack codes least significant bit first: pixel by pixel, component by component. -/
def sandPack : List (List (Nat × Nat)) → Nat
  | [] => 0
  | cs :: rest =>
    let one := cs.foldr (fun c acc => c.1 + 2 ^ c.2 * acc) 0
    one + 2 ^ (cs.map (·.2)).sum * sandPack rest

/-- Encode 64 pixels: the header byte and the slot's bytes (R155, R156). -/
def sandEncode (fmt : Nat) (px : List Nat) : Nat × List Byte :=
  let cs := sandComps fmt
  let codes := cs.map fun c => sandCodes c.1 c.2 px
  let ws := codes.map fun z => bitLen (z.foldl max 0)
  let len := sandLen fmt ws
  if 16 * (sandRaw fmt - 1) < len then
    (sandRaw fmt, px.flatMap (leBytes (sandPix fmt)))
  else
    let b0 := if fmt = 8 then ws.getD 1 0 * 16 + ws.getD 0 0 else ws.getD 0 0 * 16 + ws.getD 1 0
    let b1 := if fmt = 8 then ws.getD 3 0 * 16 + ws.getD 2 0 else ws.getD 2 0
    let bits := sandPack ((List.range 63).map fun i => (codes.zip ws).map fun p => (p.1.getD i 0, p.2))
    let bytes := leBytes 2 (b0 + 256 * b1) ++ leBytes (sandPix fmt) (px.getD 0 0) ++ leBytes (len - 2 - sandPix fmt) bits
    ((len + 15) / 16, bytes)

end Sys2Proof.Machine
end

