-- ==== Sys2Proof/Machine/Surface.lean ====
section
/-! DEFINITION. Reading and writing surfaces in memory (R141, R155): used by the compositor's fetch, the refuge fetch and
Sirocco. A reader is given by its port (who may read where), its owner code and its code in STORE_UE_INFO. -/

namespace Sys2Proof.Machine

/-- A reading master. -/
structure Reader where
  req : Nat
  code : Nat
  /-- reads locked banks through the observer port (R192, R234) -/
  observer : Bool := false
  deriving DecidableEq, Repr

/-- The observer port reads a bank that is ON, whoever owns it (R234, R235). -/
def State.observerPort (s : State) (a n : Nat) : Acc :=
  if inStore a && inStore (a + n - 1) then
    (if s.bankOn (bankOf a) && s.bankOn (bankOf (a + n - 1)) then .ok a else .bus 1)
  else .bus 1

/-- One access of `n` bytes by a block reader: bytes, and 0 clean, 1 refused, 2 uncorrectable, 4 held by a hand-over. -/
def State.fetch (s : State) (m : Reader) (a n : Nat) : (List Byte × Nat) × State :=
  if m.observer then
    match s.observerPort a n with
    | .ok k => let r := s.readAs m.code a k n
               ((r.1.1, if r.1.2 = .uncorr then 2 else 0), r.2)
    | _ => (([], 1), s)
  else
    match s.blockRead m.req m.code a n with
    | (some r, s') => ((r.1, if r.2 = .uncorr then 2 else 0), s')
    | (none, s') => (([], if s'.blocked then 4 else 1), s')

/-- What reading pixels came to: the native pixels read, and the failure that stopped it (0 none, 1 refused,
2 uncorrectable, 3 Sandpack decode, 4 held by a hand-over) with its address. -/
structure RowRes where
  px : List Word
  fail : Nat := 0
  addr : Nat := 0
  deriving DecidableEq, Repr

/-- One pixel of a format without blocks (R141). -/
def State.pixelRead (s : State) (m : Reader) (f : Surf) (x y : Nat) : RowRes × State :=
  let one := fun (s : State) (a n : Nat) => (s.fetch m a n, a)
  let row := f.base + y * f.stride
  if isYuv f.fmt then
    let l := one s (row + x) 1
    if l.1.1.2 ≠ 0 then (⟨[], l.1.1.2, l.2⟩, l.1.2)
    else
      let cy := if f.fmt = 5 then y else y / 2
      let off := cy * f.cstride
      let b := if f.fmt = 6 then one l.1.2 (f.aux + off + x / 2) 1 else one l.1.2 (f.aux + off + 2 * (x / 2)) 2
      if b.1.1.2 ≠ 0 then (⟨[], b.1.1.2, b.2⟩, b.1.2)
      else if f.fmt = 6 then
        let r := one b.1.2 (f.aux2 + off + x / 2) 1
        if r.1.1.2 ≠ 0 then (⟨[], r.1.1.2, r.2⟩, r.1.2)
        else (⟨[argb 0 (leNat l.1.1.1) (leNat b.1.1.1) (leNat r.1.1.1)], 0, 0⟩, r.1.2)
      else
        let c := leNat b.1.1.1
        (⟨[argb 0 (leNat l.1.1.1) (c % 256) (c / 256)], 0, 0⟩, b.1.2)
  else
    let p := match f.fmt with
      | 0 => one s (row + 4 * x) 4
      | 1 => one s (row + 3 * x) 3
      | 2 => one s (row + 2 * x) 2
      | _ => one s (row + x) 1
    if p.1.1.2 ≠ 0 then (⟨[], p.1.1.2, p.2⟩, p.1.2)
    else
      let v := leNat p.1.1.1
      let w := match f.fmt with
        | 0 => w32 v
        | 1 => w32 (0xFF000000 + v)
        | 2 => expand565 v
        | _ => w32 v
      (⟨[w], 0, 0⟩, p.1.2)

/-- Pixels x to x + n − 1 of row y of a format without blocks, up to the first failure. -/
def State.plainRow (s : State) (m : Reader) (f : Surf) (y : Nat) : Nat → Nat → RowRes × State
  | 0, _ => (⟨[], 0, 0⟩, s)
  | n + 1, x =>
    let r := s.pixelRead m f x y
    if r.1.fail ≠ 0 then r
    else
      let t := State.plainRow r.2 m f y n (x + 1)
      ({ t.1 with px := r.1.px ++ t.1.px }, t.2)

/-- One Sandpack block of row y, decoded to ARGB8888 (R155 to R157). -/
def State.blockOf (s : State) (m : Reader) (f : Surf) (y b : Nat) : RowRes × State :=
  let ha := f.aux + y * f.cstride + b
  let h := s.fetch m ha 1
  if h.1.2 ≠ 0 then (⟨[], h.1.2, ha⟩, h.2)
  else
    let hdr := leNat h.1.1
    let sa := f.base + y * f.stride + b * sandSlot f.fmt
    if hdr = 0 ∨ sandRaw f.fmt < hdr then (⟨[], 3, ha⟩, h.2)
    else
      let d := h.2.fetch m sa (16 * hdr)
      if d.1.2 ≠ 0 then (⟨[], d.1.2, sa⟩, d.2)
      else match sandDecode f.fmt hdr d.1.1 with
        | some px => (⟨px.map fun v => if f.fmt = 9 then expand565 v else w32 v, 0, 0⟩, d.2)
        | none => (⟨[], 3, sa⟩, d.2)

/-- Blocks b to b + n − 1 of a row. -/
def State.blockRow (s : State) (m : Reader) (f : Surf) (y : Nat) : Nat → Nat → RowRes × State
  | 0, _ => (⟨[], 0, 0⟩, s)
  | n + 1, b =>
    let r := s.blockOf m f y b
    if r.1.fail ≠ 0 then r
    else
      let t := State.blockRow r.2 m f y n (b + 1)
      ({ t.1 with px := r.1.px ++ t.1.px }, t.2)

def isSand (fmt : Nat) : Bool := fmt == 8 || fmt == 9

/-- Pixels x to x + n − 1 of row y of any format. -/
def State.rowRead (s : State) (m : Reader) (f : Surf) (x y n : Nat) : RowRes × State :=
  if isSand f.fmt && 0 < n then
    let b0 := x / 64
    let r := s.blockRow m f y ((x + n - 1) / 64 - b0 + 1) b0
    ({ r.1 with px := (r.1.px.drop (x - 64 * b0)).take n }, r.2)
  else s.plainRow m f y n x

/-- The bytes one pixel of a format takes in plane 0. -/
def bpp (fmt : Nat) : Nat :=
  match fmt with
  | 0 => 4 | 1 => 3 | 2 => 2 | 8 => 4 | 9 => 2 | _ => 1

/-- A source set as a surface without extent (R138, R141). -/
def SrcSet.surf (c : SrcSet) : Surf :=
  { base := c.base.toNat, aux := c.aux.toNat, aux2 := c.aux2.toNat, stride := bitsOf c.stride 0 16,
    cstride := bitsOf c.stride 16 16, fmt := bitsOf c.srcfmt 0 4, csc := bitsOf c.srcfmt 4 2,
    premul := bitOf c.srcfmt 8 }

/-- The reserved format codes (R141). -/
def fmtReserved (fmt : Nat) : Bool := fmt == 7 || decide (10 ≤ fmt)

/-- Addresses and strides that a format uses meet its alignment (R141). -/
def Surf.aligned (f : Surf) : Bool :=
  match f.fmt with
  | 0 | 1 | 2 | 3 => f.base % 4 == 0 && f.stride % 4 == 0
  | 4 | 5 => f.base % 4 == 0 && f.aux % 4 == 0 && f.stride % 4 == 0 && f.cstride % 4 == 0
  | 6 => f.base % 4 == 0 && f.aux % 4 == 0 && f.aux2 % 4 == 0 && f.stride % 4 == 0 && f.cstride % 4 == 0
  | 8 => f.base % 16 == 0 && f.stride % 256 == 0 && f.aux % 4 == 0 && f.cstride % 4 == 0
  | 9 => f.base % 16 == 0 && f.stride % 128 == 0 && f.aux % 4 == 0 && f.cstride % 4 == 0
  | _ => true

/-- Why a source set would be refused (R153): 0 not at all, 1 KIND, 2 FMT or CSC, 3 alignment. -/
def SrcSet.fault (c : SrcSet) : Nat :=
  let f := c.surf
  let kind := bitsOf c.srcfmt 30 2
  if kind = 3 then 1
  else if kind ≠ 0 then 0
  else if fmtReserved f.fmt || (isYuv f.fmt && f.csc == 3) then 2
  else if f.aligned then 0 else 3

end Sys2Proof.Machine
end

