-- ==== Sys2Proof/Machine/Compose.lean ====
section
/-! DEFINITION. The compositor: fetch of a line (R139, R140, R154, R192), composition of pixels (R135 to R148), clones
(R169), and the internal signatures of the check windows (R186). -/

namespace Sys2Proof.Machine

/-! ### Fetch -/

/-- A layer's fetch has failed: transparent to the end of the frame, recorded once per layer per frame (R140, R154). -/
def State.layerLost (s : State) (h l : Nat) (fail addr : Nat) : State :=
  if (s.layer h l).lost then s
  else
    let first := s.get (F.HEAD_COMP_STATUS_LERR h) == 0 && !s.flag (F.HEAD_COMP_STATUS_RFGERR h)
    let s := s.modLayer h l fun y => { y with lost := true }
    let s := s.onBit (F.HEAD_COMP_STATUS_LERR h) l
    let s := if fail = 2 then s.satUp (F.HEAD_LERR_CNT_UNCORR h) else s.satUp (F.HEAD_LERR_CNT_REFDEC h)
    if first then s.wr (R.HEAD_LERR_ADDR h) (w32 addr) else s

/-- The head columns a layer's rectangle covers on an active line: first column and length. -/
def coverX (pos size : Word) (hactive : Nat) : Int × Nat :=
  let px := sgn 16 (bitsOf pos 0 16)
  let lo := max 0 px
  let hi := min (hactive : Int) (px + (bitsOf size 0 16 : Nat))
  (lo, (hi - lo).toNat)

/-- Whether the rectangle covers head line y. -/
def coverY (pos size : Word) (y : Int) : Bool :=
  let py := sgn 16 (bitsOf pos 16 16)
  decide (py ≤ y ∧ y < py + (bitsOf size 16 16 : Nat))

/-- The covered part of line y of a memory layer, by POS, SIZE and SRC as given: what the fetch buffer then holds, and the state
with a failure recorded. A fetch that a hand-over holds has delivered nothing (R230). -/
def State.fetchBuf (s : State) (h l : Nat) (y : Int) (pos size src : Word) : LineBuf × State :=
  let lay := s.layer h l
  let c := coverX pos size (s.head h).tim.hactive
  let sx := ((bitsOf src 0 16 : Nat) : Int) + c.1 - sgn 16 (bitsOf pos 0 16)
  let sy := ((bitsOf src 16 16 : Nat) : Int) + y - sgn 16 (bitsOf pos 16 16)
  let r := s.rowRead { req := 0x18 + h, code := 2 } lay.act.surf sx.toNat sy.toNat c.2
  if r.1.fail = 4 then ({ line := y, x0 := c.1, px := [], held := some (pos, size, src) }, s)
  else ({ line := y, x0 := c.1, px := r.1.px }, if r.1.fail = 0 then r.2 else r.2.layerLost h l r.1.fail r.1.addr)

/-- Fetch head line y of memory layer l: POS, SIZE and SRC are sampled now (R139). A set that R153 would have refused is
reported in every frame, whatever its KIND and its rectangle (R154). -/
def State.fetchLayer (s : State) (h l : Nat) (y : Int) : State :=
  let lay := s.layer h l
  let pos := s.rd (R.HEAD_L_POS h l)
  let size := s.rd (R.HEAD_L_SIZE h l)
  if lay.act.fault ≠ 0 then s.layerLost h l 1 lay.act.base.toNat
  else if bitsOf lay.act.srcfmt 30 2 ≠ 0 then s
  else if !coverY pos size y then s.modLayer h l fun z => { z with next := none }
  else
    let r := s.fetchBuf h l y pos size (s.rd (R.HEAD_L_SRC h l))
    r.2.modLayer h l fun z => { z with next := some r.1 }

/-- A held fetch of one buffer goes on. -/
def State.refetchBuf (s : State) (h l : Nat) (b : Option LineBuf) : Option LineBuf × State :=
  match b with
  | none => (none, s)
  | some z => match z.held with
    | none => (some z, s)
    | some (pos, size, src) =>
      let r := s.fetchBuf h l z.line pos size src
      (some r.1, r.2)

/-- A hand-over holds a fetch of layer l. -/
def State.fetchHeld (s : State) (h l : Nat) : Bool :=
  ((s.layer h l).cur.bind (·.held)).isSome || ((s.layer h l).next.bind (·.held)).isSome

/-- The fetches of layer l that a hand-over held are made when it has ended (R230). -/
def State.refetch (s : State) (h l : Nat) : State :=
  if !s.fetchHeld h l then s
  else
    let a := s.refetchBuf h l (s.layer h l).cur
    let b := a.2.refetchBuf h l (s.layer h l).next
    b.2.modLayer h l fun z => { z with cur := a.1, next := b.1 }

/-- The refuge surface can no longer be shown in this frame: RFGERR, and one frame counted (R192). -/
def State.refugeLost (s : State) (h : Nat) (fail addr : Nat) : State :=
  if (s.head h).rfgLost then s
  else
    let first := s.get (F.HEAD_COMP_STATUS_LERR h) == 0 && !s.flag (F.HEAD_COMP_STATUS_RFGERR h)
    let s := (s.modHead h fun x => { x with rfgLost := true }).on (F.HEAD_COMP_STATUS_RFGERR h)
    let s := if fail = 2 then s.satUp (F.HEAD_LERR_CNT_UNCORR h) else s.satUp (F.HEAD_LERR_CNT_REFDEC h)
    if first then s.wr (R.HEAD_LERR_ADDR h) (w32 addr) else s

/-- Fetch line y of the refuge surface through the observer port (R192). -/
def State.fetchRefuge (s : State) (h : Nat) (y : Int) : State :=
  match (s.head h).refuge with
  | none => s
  | some d =>
    if y < 0 ∨ d.height ≤ y.toNat then s.modHead h fun x => { x with rfgNext := none }
    else
      let n := min d.width (s.head h).tim.hactive
      let f : Surf := { base := d.dest.toNat, stride := d.stride, fmt := d.fmt }
      let r := s.rowRead { req := 0, code := 2, observer := true } f 0 y.toNat n
      let s := r.2.modHead h fun x => { x with rfgNext := some { line := y, x0 := 0, px := r.1.px } }
      if r.1.fail = 0 then s else s.refugeLost h r.1.fail r.1.addr

/-- Start the fetch of line y for the whole head. -/
def State.fetchLine (s : State) (h : Nat) (y : Int) : State :=
  if y < 0 ∨ ((s.head h).tim.vactive : Int) ≤ y then s
  else if s.inRefugeView h then s.fetchRefuge h y
  else (List.range (s.head h).nlayers).foldl (fun t l => t.fetchLayer h l y) s

/-- The fetched line becomes the line being composed; a solid layer's position is sampled at the deadline (R139). `late` names
the layers whose fetch has not completed, and above them the heads whose refuge fetch has not. -/
def State.advanceBuffers (s : State) (h : Nat) (late : BitVec 12) : State :=
  (s.modHead h fun x => { x with rfgCur := x.rfgNext.map fun b => { b with late := late.getLsbD (8 + h) },
                                 rfgNext := none }).forEach 8 fun l s =>
    let pos := s.rd (R.HEAD_L_POS h l)
    let size := s.rd (R.HEAD_L_SIZE h l)
    s.modLayer h l fun z =>
      { z with cur := z.next.map fun b => { b with late := late.getLsbD l }, next := none, pos := pos, size := size }

/-! ### Composition -/

/-- A pixel of a line buffer at head column x; of a late line only what has been delivered (R139). -/
def State.bufPixel (s : State) (b : Option LineBuf) (x : Nat) : Option Word :=
  match b with
  | none => none
  | some b =>
    if (x : Int) < b.x0 then none
    else
      let i := ((x : Int) - b.x0).toNat
      if b.late && decide (Config.lateDelivered s.freeCtr ≤ i) then none else b.px[i]?

/-- The register words' own error control (R237): word `a` of a palette as delivered, with its outcome. -/
def State.eccReg (s : State) (a : Nat) : Word × Ecc :=
  let one := fun i =>
    let d : Byte := BitVec.ofNat 8 (bitsOf (s.rd a) (8 * i) 8)
    match tabGet (dflt 0) s.ecc (a + i) with
    | 0 => (d, Ecc.clean)
    | m => judge d (checkBits d ^^^ m)
  (w32 (leNat ((List.range 4).map fun i => (one i).1)), (List.range 4).foldl (fun e i => e.worst (one i).2) .clean)

/-- A pixel of a live layer, read from the line ring (R36, R37); an uncorrectable error loses the layer (R238). -/
def State.ringPixel (s : State) (h l r x y : Nat) : Option Word × State :=
  let k := ringKey h r (y % 8) x
  let g := s.readAs 2 k k 4
  if g.1.2 = .uncorr then (none, g.2.layerLost h l 2 k) else (some (w32 (leNat g.1.1)), g.2)

/-- The native pixel that layer l shows at active pixel (x, y), if it shows one. -/
def State.layerRaw (s : State) (h l x y : Nat) : Option Word × State :=
  let lay := s.layer h l
  if !s.flag (F.HEAD_L_MODE_EN h l) || lay.lost || lay.hidden then (none, s)
  else match bitsOf lay.act.srcfmt 30 2 with
    | 0 => (s.bufPixel lay.cur x, s)
    | 1 => match s.ringOfLayer h l with
      | some r => s.ringPixel h l r x y
      | none => (none, s)
    | 2 => let c := coverX lay.pos lay.size (s.head h).tim.hactive
           (if coverY lay.pos lay.size (y : Int) && decide (c.1 ≤ (x : Int)) && decide ((x : Int) < c.1 + c.2)
            then some lay.act.solid else none, s)
    | _ => (none, s)

/-- The palette of layer l for a pixel in format fmt, as error control delivers the entry the pixel takes (R142, R238): none with
an uncorrectable error, which loses the layer. -/
def State.palette (s : State) (h l fmt : Nat) (w : Word) : Option (Nat → Word) × State :=
  if fmt = 3 then
    let a := R.HEAD_L_PAL h l (bitsOf w 0 8)
    let e := s.eccReg a
    let s' := s.noteEcc 2 a a e.2
    if e.2 = .uncorr then (none, s'.layerLost h l 2 a) else (some fun _ => e.1, s')
  else (some fun i => s.rd (R.HEAD_L_PAL h l i), s)

/-- Blend a layer's 10-bit pixel over `d`, the three 10-bit components beneath (R143 to R146). -/
def State.blendOver (s : State) (h l : Nat) (p : Nat × Nat × Nat × Nat) (d : Nat × Nat × Nat) : Nat × Nat × Nat :=
  let c := (s.layer h l).act.srcfmt
  let g := s.get (F.HEAD_L_ALPHA_GA h l)
  let rgb8 := p.2.1 / 4 * 65536 + p.2.2.1 / 4 * 256 + p.2.2.2 / 4
  let a := effAlpha (s.get (F.HEAD_L_MODE_ALPHAMODE h l)) g p.1 (rgb8 == s.get (F.HEAD_L_KEY_RGB h l))
    (bitsOf c 30 2 == 1) (isYuv (if bitsOf c 30 2 = 0 then bitsOf c 0 4 else 0))
  let pm := bitOf c 8
  (blend1 pm a g p.2.1 d.1, blend1 pm a g p.2.2.1 d.2.1, blend1 pm a g p.2.2.2 d.2.2)

/-- Layer l at active pixel (x, y) over `d` (R135 to R146). -/
def State.layerOver (s : State) (h l x y : Nat) (d : Nat × Nat × Nat) : (Nat × Nat × Nat) × State :=
  let c := (s.layer h l).act.srcfmt
  let fmt := if bitsOf c 30 2 = 0 then bitsOf c 0 4 else 0
  let r := s.layerRaw h l x y
  match r.1 with
  | none => (d, r.2)
  | some w =>
    let q := r.2.palette h l fmt w
    match q.1 with
    | none => (d, q.2)
    | some pal => (q.2.blendOver h l (native10 fmt (bitsOf c 4 2) pal w) d, q.2)

/-- The 10-bit background (R135). -/
def State.background (s : State) (h : Nat) : Nat × Nat × Nat :=
  let w := s.rd (R.HEAD_BG h)
  (4 * pxR w, 4 * pxG w, 4 * pxB w)

/-- The refuge surface at active pixel x of the line in its buffer, over the background (R192); an uncorrectable palette entry
loses it like an uncorrectable fetch. -/
def State.refugePixel (s : State) (h x : Nat) : (Nat × Nat × Nat) × State :=
  let hd := s.head h
  match (if hd.rfgLost then none else s.bufPixel hd.rfgCur x), hd.refuge with
  | some w, some d =>
    if d.fmt = 3 then
      let a := R.HEAD_L_PAL h 0 (bitsOf w 0 8)
      let e := s.eccReg a
      let s' := s.noteEcc 2 a a e.2
      if e.2 = .uncorr then (s.background h, s'.refugeLost h 2 a) else ((native10 d.fmt 0 (fun _ => e.1) w).2, s')
    else ((native10 d.fmt 0 (fun _ => 0) w).2, s)
  | _, _ => (s.background h, s)

/-- The composed 10-bit pixel (x, y) of a head: its layers, or the refuge surface (R192). -/
def State.composePixel (s : State) (h x y : Nat) : (Nat × Nat × Nat) × State :=
  if s.inRefugeView h then s.refugePixel h x
  else
    (List.range (s.head h).nlayers).foldl (fun d l => d.2.layerOver h l x y d.1) (s.background h, s)

/-- The pixel lies in window rectangle (R184). -/
def WinSt.has (w : WinSt) (x y : Nat) : Bool :=
  decide (bitsOf w.rectA 0 12 ≤ x ∧ x < bitsOf w.rectB 0 12 ∧ bitsOf w.rectA 16 12 ≤ y ∧ y < bitsOf w.rectB 16 12)

/-- The 28 bits that one LVDS link carries for an active pixel, pair k in bits 7k to 7k + 6 (R164): 18 colour bits, HSYNC, VSYNC and
DE on pairs 0 to 2, and the colours' other two bits on pair 3 with 24-bit colour, the high ones under VESA and the low ones under
JEIDA. Which bit of a pair carries what is PRESUMED (log 121). -/
def lvdsWord (cfg sync : Word) (r g b : Nat) : BitVec 28 :=
  let l18 := bitOf cfg 0
  let six := fun c => if l18 || bitOf cfg 1 then c / 4 else c % 64
  let two := fun c => if l18 then 0 else if bitOf cfg 1 then c % 4 else c / 64
  let hs := if bitOf sync 0 then 0 else 1
  let vs := if bitOf sync 1 then 0 else 1
  let de := if bitOf sync 2 then 0 else 1
  BitVec.ofNat 28 (six r + six g * 2 ^ 6 + six b * 2 ^ 12 + hs * 2 ^ 18 + vs * 2 ^ 19 + de * 2 ^ 20 + two r * 2 ^ 21
    + two g * 2 ^ 23 + two b * 2 ^ 25)

/-- Active pixel x on the links of an LVDS head: dual link carries even pixels on A and odd ones on B, exchanged by LSWAP; single
link carries all on A (R164). -/
def HeadSt.lvdsPixel (hd : HeadSt) (sync : Word) (x r g b : Nat) : HeadSt :=
  let w := lvdsWord hd.phyRun sync r g b
  let onB := hd.lvdsB.isSome && ((x % 2 == 1) != bitOf hd.phyRun 4)
  if onB then { hd with lvdsB := hd.lvdsB.map (· ++ [w]) } else { hd with lvdsA := hd.lvdsA.map (· ++ [w]) }

/-- Send one composed pixel out of head `h`: its own depth and dither (R147, R169), its windows' internal signatures. -/
def State.emit (s : State) (h x y : Nat) (p : Nat × Nat × Nat) : State :=
  s.modHead h fun hd =>
    let o := outByte hd.depth6 hd.dither x y
    let r := o p.1
    let g := o p.2.1
    let b := o p.2.2
    let bytes : List Byte := [BitVec.ofNat 8 r, BitVec.ofNat 8 g, BitVec.ofNat 8 b]
    let wins := (List.range 16).foldl (fun t n =>
      let w := tabGet (dflt {}) t n
      if w.live && w.has x y then tabSet (dflt {}) t n { w with crc := crc32cRun w.crc bytes } else t) hd.wins
    { hd with wins := wins, out := hd.out ++ [BitVec.ofNat 24 (r * 65536 + g * 256 + b)] }.lvdsPixel (s.rd (R.HEAD_SYNC h)) x r g b

/-- Compose pixel x of the head's current line, for the head and its clones. -/
def State.composeOne (s : State) (h x : Nat) : State :=
  let y := (s.head h).line.toNat
  let p := s.composePixel h x y
  (p.2.clonesOf h).foldl (fun t c =>
    if t.inRefugeView c then let q := t.refugePixel c x; q.2.emit c x y q.1 else t.emit c x y p.1) (p.2.emit h x y p.1)

/-- Compose the current line up to (not including) active pixel `x`; a blanking line has none. -/
def State.composeTo (s : State) (h x : Nat) : State :=
  let hd := s.head h
  if hd.line < 0 ∨ !(hd.phase == .running) then s
  else
    let lim := min x hd.tim.hactive
    let s := (List.range (lim - hd.composed)).foldl (fun t i => t.composeOne h (hd.composed + i)) s
    s.modHead h fun z => { z with composed := max z.composed lim }

/-- The active period of the current line ends: the rest of the line is composed, its ring slot is free and cleared
(R14, R36). -/
def State.endLine (s : State) (h : Nat) : State :=
  let hd := s.head h
  if hd.line < 0 ∨ !(hd.phase == .running) then s
  else
    let s := s.composeTo h hd.tim.hactive
    let s := s.modHead h fun z =>
      { z with endedLine := z.line, doneLines := z.doneLines.filter fun d => decide (z.line < (d.2 : Int)),
               slots := z.slots.filter fun d => decide (z.line < (d.2 : Int)) }
    let sl := hd.line.toNat % 8
    s.clearKeys fun k => decide (0x30000000 + 0x60000 * h ≤ k ∧ k < 0x30000000 + 0x60000 * h + 0x50000 ∧
      (k - 0x30000000 - 0x60000 * h) % 0x14000 / 0x2800 = sl)

/-- The slot that task t names is free for it (R14): the oldest line issued for the slot whose active period has not ended, if
there is one, is the task's own. Of the slot named by SLOT, whatever LINE mod 8 is (log 112). -/
def State.slotFree (s : State) (t : Task) : Bool :=
  match (s.head t.headNo).slots.find? fun d => d.1 == t.ring && d.2 % 8 == t.slot with
  | some d => d.2 == t.line
  | none => true

end Sys2Proof.Machine
end

