-- ==== Sys2Proof/Decode.lean ====
section
/-! DEFINITION. Decoding. No row of the command table has bits of its own (its commands come from outside), so
`decodeTableWord` answers none. The instructions that the engines and the control core execute do have words: `encodeInsn`
and `decodeInsn` are the map of R82 to R84, R91, R92, R97, R102 to R104, R108 and R112, used by a debug step, by the patch
units and by fetch comparators. -/

namespace Sys2Proof

/-- The command a table word spells: the table gives no row bits, so none. -/
def decodeTableWord (_nbits _w : Nat) : Option Instr := none

/-! ### Formats (R82) -/

/-- Register format. -/
def encReg (major rd rs rt : BitVec 5) (s : Bool) (fn : BitVec 10) (hi : Bool) : BitVec 32 :=
  BitVec.ofBool hi ++ major ++ rd ++ rs ++ rt ++ BitVec.ofBool s ++ fn
/-- Immediate and branch format. -/
def encImm (major : BitVec 6) (a b : BitVec 5) (imm : BitVec 16) : BitVec 32 := major ++ a ++ b ++ imm
/-- Jump format. -/
def encJump (major : BitVec 6) (off : BitVec 26) : BitVec 32 := major ++ off
/-- Special format. -/
def encSpec (rd rs sr : BitVec 5) (fn : BitVec 11) : BitVec 32 := (0x3F : BitVec 6) ++ rd ++ rs ++ sr ++ fn

/-- REG group, major 0x00. -/
def encREG (rd rs rt : BitVec 5) (s : Bool) (fn : BitVec 10) : BitVec 32 := encReg 0 rd rs rt s fn false
/-- PIX group, major 0x3C; S must be 0. -/
def encPIX (rd rs rt : BitVec 5) (fn : BitVec 10) : BitVec 32 := encReg 0x1C rd rs rt false fn true

/-- The word of an instruction; a command that is no instruction has none and answers 0. -/
def encodeInsn : Instr → BitVec 32
  | .or _ rd rs rt s => encREG rd rs rt s 0x0
  | .and _ rd rs rt s => encREG rd rs rt s 0x1
  | .xor _ rd rs rt s => encREG rd rs rt s 0x2
  | .andn _ rd rs rt s => encREG rd rs rt s 0x3
  | .add _ rd rs rt s => encREG rd rs rt s 0x4
  | .sub _ rd rs rt s => encREG rd rs rt s 0x5
  | .adc _ rd rs rt s => encREG rd rs rt s 0x6
  | .sbc _ rd rs rt s => encREG rd rs rt s 0x7
  | .slt _ rd rs rt s => encREG rd rs rt s 0xA
  | .sltu _ rd rs rt s => encREG rd rs rt s 0xB
  | .min _ rd rs rt s => encREG rd rs rt s 0xC
  | .max _ rd rs rt s => encREG rd rs rt s 0xD
  | .minu _ rd rs rt s => encREG rd rs rt s 0xE
  | .maxu _ rd rs rt s => encREG rd rs rt s 0xF
  | .sll _ rd rs rt s => encREG rd rs rt s 0x10
  | .srl _ rd rs rt s => encREG rd rs rt s 0x11
  | .sra _ rd rs rt s => encREG rd rs rt s 0x12
  | .ror _ rd rs rt s => encREG rd rs rt s 0x13
  | .bext _ rd rs rt s => encREG rd rs rt s 0x1B
  | .neg _ rd rs s => encREG rd rs 0 s 0x8
  | .abs _ rd rs s => encREG rd rs 0 s 0x9
  | .clz _ rd rs s => encREG rd rs 0 s 0x18
  | .sextb _ rd rs s => encREG rd rs 0 s 0x19
  | .sexth _ rd rs s => encREG rd rs 0 s 0x1A
  | .slli _ rd rs amt s => encREG rd rs amt s 0x14
  | .srli _ rd rs amt s => encREG rd rs amt s 0x15
  | .srai _ rd rs amt s => encREG rd rs amt s 0x16
  | .rori _ rd rs amt s => encREG rd rs amt s 0x17
  | .mul _ rs rt => encREG 0 rs rt false 0x20
  | .mulu _ rs rt => encREG 0 rs rt false 0x21
  | .mac _ rs rt => encREG 0 rs rt false 0x22
  | .macu _ rs rt => encREG 0 rs rt false 0x23
  | .div _ rs rt => encREG 0 rs rt false 0x24
  | .divu _ rs rt => encREG 0 rs rt false 0x25
  | .addi _ rd rs imm => encImm 0x1 rd rs imm
  | .andi _ rd rs imm => encImm 0x2 rd rs imm
  | .ori _ rd rs imm => encImm 0x3 rd rs imm
  | .xori _ rd rs imm => encImm 0x4 rd rs imm
  | .slti _ rd rs imm => encImm 0x6 rd rs imm
  | .sltiu _ rd rs imm => encImm 0x7 rd rs imm
  | .addis _ rd rs imm => encImm 0x8 rd rs imm
  | .lb _ rd rs imm => encImm 0x20 rd rs imm
  | .lbu _ rd rs imm => encImm 0x21 rd rs imm
  | .lh _ rd rs imm => encImm 0x22 rd rs imm
  | .lhu _ rd rs imm => encImm 0x23 rd rs imm
  | .lw _ rd rs imm => encImm 0x24 rd rs imm
  | .ld _ rd rs imm => encImm 0x25 rd rs imm
  | .ll _ rd rs imm => encImm 0x26 rd rs imm
  | .sb _ rd rs imm => encImm 0x28 rd rs imm
  | .sh _ rd rs imm => encImm 0x29 rd rs imm
  | .sw _ rd rs imm => encImm 0x2A rd rs imm
  | .sd _ rd rs imm => encImm 0x2B rd rs imm
  | .sc _ rd rs imm => encImm 0x2C rd rs imm
  | .lui _ rd imm => encImm 0x5 rd 0 imm
  | .beq _ rs rt off => encImm 0x10 rs rt off
  | .bne _ rs rt off => encImm 0x11 rs rt off
  | .blt _ rs rt off => encImm 0x12 rs rt off
  | .bge _ rs rt off => encImm 0x13 rs rt off
  | .bltu _ rs rt off => encImm 0x14 rs rt off
  | .bgeu _ rs rt off => encImm 0x15 rs rt off
  | .bf _ cond off => encImm 0x16 cond 0 off
  | .j _ off => encJump 0x18 off
  | .call _ off => encJump 0x19 off
  | .loop _ rs n d => encImm 0x1A rs ((0 : BitVec 4) ++ BitVec.ofBool n) d
  | .loopi _ n cnt d => (0x1B : BitVec 6) ++ BitVec.ofBool n ++ cnt ++ d
  | .lbua _ rd imm => encImm 0x30 rd 0 imm
  | .lhua _ rd imm => encImm 0x31 rd 0 imm
  | .lwa _ rd imm => encImm 0x32 rd 0 imm
  | .sba _ rd imm => encImm 0x34 rd 0 imm
  | .sha _ rd imm => encImm 0x35 rd 0 imm
  | .swa _ rd imm => encImm 0x36 rd 0 imm
  | .lwsp _ rd imm => encImm 0x38 rd 0 imm
  | .swsp _ rd imm => encImm 0x39 rd 0 imm
  | .adjsp _ imm => encImm 0x3A 0 0 imm
  | .paddub _ rd rs rt => encPIX rd rs rt 0x0
  | .psubub _ rd rs rt => encPIX rd rs rt 0x1
  | .paddh _ rd rs rt => encPIX rd rs rt 0x2
  | .psubh _ rd rs rt => encPIX rd rs rt 0x3
  | .pmulh _ rd rs rt => encPIX rd rs rt 0x4
  | .packub _ rd rs rt => encPIX rd rs rt 0x5
  | .mula _ rd rs rt => encPIX rd rs rt 0x8
  | .cov _ rd rs rt => encPIX rd rs rt 0x9
  | .blend _ rd rs rt => encPIX rd rs rt 0xA
  | .blendp _ rd rs rt => encPIX rd rs rt 0xB
  | .rsqs _ rd rs rt => encPIX rd rs rt 0x19
  | .rsqe _ rd rs => encPIX rd rs 0 0x18
  | .tfetch _ rd rs => encPIX rd rs 0 0x20
  | .stl _ rs rt => encPIX 0 rs rt 0x28
  | .stl8 _ rs rt => encPIX 0 rs rt 0x29
  | .palK _ k rd rs rt => encPIX rd rs rt ((0x04 : BitVec 8) ++ k)
  | .brk _ => encSpec 0 0 0 0x0
  | .wait _ => encSpec 0 0 0 0x1
  | .syscall _ => encSpec 0 0 0 0x2
  | .sysret _ => encSpec 0 0 0 0x3
  | .eret _ => encSpec 0 0 0 0x4
  | .barp _ => encSpec 0 0 0 0x5
  | .ret _ => encSpec 0 0 0 0xA
  | .jr _ rs => encSpec 0 rs 0 0x8
  | .callr _ rs => encSpec 0 rs 0 0x9
  | .push _ rs => encSpec 0 rs 0 0xB
  | .complete _ rs => encSpec 0 rs 0 0xD
  | .pop _ rd => encSpec rd 0 0 0xC
  | .mfs _ rd sr => encSpec rd 0 sr 0x6
  | .mts _ sr rs => encSpec 0 rs sr 0x7
  | _ => 0

/-- What R80, R97, R102, R104, R109, R111 and R112 ask of an instruction's operands and of the context that executes it;
an instruction that fails this raises exception 1. -/
def legalInsn : Instr → Bool
  | .bf _ cond _ => decide (cond.toNat < 14)
  | .loop _ _ _ d => d != 0
  | .loopi _ _ _ d => d != 0
  | .ld _ rd _ _ => rd.toNat % 2 == 0
  | .sd _ rd _ _ => rd.toNat % 2 == 0
  | .tfetch _ rd _ => rd == 8 || rd == 16 || rd == 24
  | .stl .cc _ _ => false
  | .stl8 .cc _ _ => false
  | .stl8 (.se _) rs _ => rs.toNat % 8 == 0
  | .complete .cc _ => false
  | .syscall (.se _) => false
  | .sysret (.se _) => false
  | .mfs .cc _ sr => decide (sr.toNat ≤ 24)
  | .mfs (.se _) _ sr => decide (sr.toNat ≤ 24) && !decide (18 ≤ sr.toNat ∧ sr.toNat ≤ 21)
  | .mts .cc sr _ => decide (1 ≤ sr.toNat ∧ sr.toNat ≤ 23)
  | .mts (.se _) sr _ => decide (1 ≤ sr.toNat ∧ sr.toNat ≤ 22) && !decide (18 ≤ sr.toNat ∧ sr.toNat ≤ 21)
  | _ => true

/-! ### Decoding (R83) -/

/-- The REG group (R91). -/
def decREG (c : Ctx) (rd rs rt : BitVec 5) (s : Bool) (fn : BitVec 10) : Option Instr :=
  if fn = 0x0 then some (.or c rd rs rt s)
  else if fn = 0x1 then some (.and c rd rs rt s)
  else if fn = 0x2 then some (.xor c rd rs rt s)
  else if fn = 0x3 then some (.andn c rd rs rt s)
  else if fn = 0x4 then some (.add c rd rs rt s)
  else if fn = 0x5 then some (.sub c rd rs rt s)
  else if fn = 0x6 then some (.adc c rd rs rt s)
  else if fn = 0x7 then some (.sbc c rd rs rt s)
  else if fn = 0xA then some (.slt c rd rs rt s)
  else if fn = 0xB then some (.sltu c rd rs rt s)
  else if fn = 0xC then some (.min c rd rs rt s)
  else if fn = 0xD then some (.max c rd rs rt s)
  else if fn = 0xE then some (.minu c rd rs rt s)
  else if fn = 0xF then some (.maxu c rd rs rt s)
  else if fn = 0x10 then some (.sll c rd rs rt s)
  else if fn = 0x11 then some (.srl c rd rs rt s)
  else if fn = 0x12 then some (.sra c rd rs rt s)
  else if fn = 0x13 then some (.ror c rd rs rt s)
  else if fn = 0x1B then some (.bext c rd rs rt s)
  else if fn = 0x8 then (if rt = 0 then some (.neg c rd rs s) else none)
  else if fn = 0x9 then (if rt = 0 then some (.abs c rd rs s) else none)
  else if fn = 0x18 then (if rt = 0 then some (.clz c rd rs s) else none)
  else if fn = 0x19 then (if rt = 0 then some (.sextb c rd rs s) else none)
  else if fn = 0x1A then (if rt = 0 then some (.sexth c rd rs s) else none)
  else if fn = 0x14 then some (.slli c rd rs rt s)
  else if fn = 0x15 then some (.srli c rd rs rt s)
  else if fn = 0x16 then some (.srai c rd rs rt s)
  else if fn = 0x17 then some (.rori c rd rs rt s)
  else if fn = 0x20 then (if rd = 0 ∧ s = false then some (.mul c rs rt) else none)
  else if fn = 0x21 then (if rd = 0 ∧ s = false then some (.mulu c rs rt) else none)
  else if fn = 0x22 then (if rd = 0 ∧ s = false then some (.mac c rs rt) else none)
  else if fn = 0x23 then (if rd = 0 ∧ s = false then some (.macu c rs rt) else none)
  else if fn = 0x24 then (if rd = 0 ∧ s = false then some (.div c rs rt) else none)
  else if fn = 0x25 then (if rd = 0 ∧ s = false then some (.divu c rs rt) else none)
  else none

/-- The PIX group with S = 0 (R108). -/
def decPIX (c : Ctx) (rd rs rt : BitVec 5) (fn : BitVec 10) : Option Instr :=
  if fn = 0x0 then some (.paddub c rd rs rt)
  else if fn = 0x1 then some (.psubub c rd rs rt)
  else if fn = 0x2 then some (.paddh c rd rs rt)
  else if fn = 0x3 then some (.psubh c rd rs rt)
  else if fn = 0x4 then some (.pmulh c rd rs rt)
  else if fn = 0x5 then some (.packub c rd rs rt)
  else if fn = 0x8 then some (.mula c rd rs rt)
  else if fn = 0x9 then some (.cov c rd rs rt)
  else if fn = 0xA then some (.blend c rd rs rt)
  else if fn = 0xB then some (.blendp c rd rs rt)
  else if fn = 0x19 then some (.rsqs c rd rs rt)
  else if fn.extractLsb' 2 8 = 0x04 then some (.palK c (fn.extractLsb' 0 2) rd rs rt)
  else if fn = 0x18 then (if rt = 0 then some (.rsqe c rd rs) else none)
  else if fn = 0x20 then (if rt = 0 then some (.tfetch c rd rs) else none)
  else if fn = 0x28 then (if rd = 0 then some (.stl c rs rt) else none)
  else if fn = 0x29 then (if rd = 0 then some (.stl8 c rs rt) else none)
  else none

/-- The special group; fields an instruction does not use must be zero (R112). -/
def decSpec (c : Ctx) (rd rs sr : BitVec 5) (fn : BitVec 11) : Option Instr :=
  if fn = 0x0 then (if rd = 0 ∧ rs = 0 ∧ sr = 0 then some (.brk c) else none)
  else if fn = 0x1 then (if rd = 0 ∧ rs = 0 ∧ sr = 0 then some (.wait c) else none)
  else if fn = 0x2 then (if rd = 0 ∧ rs = 0 ∧ sr = 0 then some (.syscall c) else none)
  else if fn = 0x3 then (if rd = 0 ∧ rs = 0 ∧ sr = 0 then some (.sysret c) else none)
  else if fn = 0x4 then (if rd = 0 ∧ rs = 0 ∧ sr = 0 then some (.eret c) else none)
  else if fn = 0x5 then (if rd = 0 ∧ rs = 0 ∧ sr = 0 then some (.barp c) else none)
  else if fn = 0xA then (if rd = 0 ∧ rs = 0 ∧ sr = 0 then some (.ret c) else none)
  else if fn = 0x8 then (if rd = 0 ∧ sr = 0 then some (.jr c rs) else none)
  else if fn = 0x9 then (if rd = 0 ∧ sr = 0 then some (.callr c rs) else none)
  else if fn = 0xB then (if rd = 0 ∧ sr = 0 then some (.push c rs) else none)
  else if fn = 0xD then (if rd = 0 ∧ sr = 0 then some (.complete c rs) else none)
  else if fn = 0xC then (if rs = 0 ∧ sr = 0 then some (.pop c rd) else none)
  else if fn = 0x6 then (if rs = 0 then some (.mfs c rd sr) else none)
  else if fn = 0x7 then (if rd = 0 then some (.mts c sr rs) else none)
  else none

/-- The immediate, branch and jump formats but the groups (R83). -/
def decImm (c : Ctx) (mj : BitVec 6) (a b : BitVec 5) (imm : BitVec 16) : Option Instr :=
  if mj = 0x1 then some (.addi c a b imm)
  else if mj = 0x2 then some (.andi c a b imm)
  else if mj = 0x3 then some (.ori c a b imm)
  else if mj = 0x4 then some (.xori c a b imm)
  else if mj = 0x6 then some (.slti c a b imm)
  else if mj = 0x7 then some (.sltiu c a b imm)
  else if mj = 0x8 then some (.addis c a b imm)
  else if mj = 0x20 then some (.lb c a b imm)
  else if mj = 0x21 then some (.lbu c a b imm)
  else if mj = 0x22 then some (.lh c a b imm)
  else if mj = 0x23 then some (.lhu c a b imm)
  else if mj = 0x24 then some (.lw c a b imm)
  else if mj = 0x25 then some (.ld c a b imm)
  else if mj = 0x26 then some (.ll c a b imm)
  else if mj = 0x28 then some (.sb c a b imm)
  else if mj = 0x29 then some (.sh c a b imm)
  else if mj = 0x2A then some (.sw c a b imm)
  else if mj = 0x2B then some (.sd c a b imm)
  else if mj = 0x2C then some (.sc c a b imm)
  else if mj = 0x10 then some (.beq c a b imm)
  else if mj = 0x11 then some (.bne c a b imm)
  else if mj = 0x12 then some (.blt c a b imm)
  else if mj = 0x13 then some (.bge c a b imm)
  else if mj = 0x14 then some (.bltu c a b imm)
  else if mj = 0x15 then some (.bgeu c a b imm)
  else if mj = 0x5 then (if b = 0 then some (.lui c a imm) else none)
  else if mj = 0x16 then (if b = 0 then some (.bf c a imm) else none)
  else if mj = 0x18 then some (.j c (a ++ b ++ imm))
  else if mj = 0x19 then some (.call c (a ++ b ++ imm))
  else if mj = 0x1A then (if b.extractLsb' 1 4 = 0 then some (.loop c a (b.getLsbD 0) imm) else none)
  else if mj = 0x1B then some (.loopi c (a.getLsbD 4) (a.extractLsb' 0 4 ++ b) imm)
  else if mj = 0x30 then (if b = 0 then some (.lbua c a imm) else none)
  else if mj = 0x31 then (if b = 0 then some (.lhua c a imm) else none)
  else if mj = 0x32 then (if b = 0 then some (.lwa c a imm) else none)
  else if mj = 0x34 then (if b = 0 then some (.sba c a imm) else none)
  else if mj = 0x35 then (if b = 0 then some (.sha c a imm) else none)
  else if mj = 0x36 then (if b = 0 then some (.swa c a imm) else none)
  else if mj = 0x38 then (if b = 0 then some (.lwsp c a imm) else none)
  else if mj = 0x39 then (if b = 0 then some (.swsp c a imm) else none)
  else if mj = 0x3A then (if a = 0 ∧ b = 0 then some (.adjsp c imm) else none)
  else none

/-- Decode an instruction word in a context; none is a word that raises exception 1. -/
def decodeInsn (c : Ctx) (w : BitVec 32) : Option Instr :=
  let mj := w.extractLsb' 26 6
  let a := w.extractLsb' 21 5
  let b := w.extractLsb' 16 5
  let d := w.extractLsb' 11 5
  let i :=
    if mj = 0x00 then decREG c a b d (w.getLsbD 10) (w.extractLsb' 0 10)
    else if mj = 0x3C then (if w.getLsbD 10 then none else decPIX c a b d (w.extractLsb' 0 10))
    else if mj = 0x3F then decSpec c a b d (w.extractLsb' 0 11)
    else decImm c mj a b (w.extractLsb' 0 16)
  i.filter legalInsn

end Sys2Proof
end

