-- ==== Sys2Proof/Machine/Exc.lean ====
section
/-! DEFINITION. Exceptions (R117 to R134): entry, the vector read, double faults, lockup and parking with the root's fault
action (R46, R48); the return; halts on events (R364, R370, R371); and the frame in which every instruction executes
(issue, products landing, loop-end check). -/

namespace Sys2Proof.Machine

/-! ### STATUS (R81) -/

def stLPE : Nat := 11
def stNPRED : Nat := 10
def stOVT : Nat := 9
def stDZT : Nat := 8
def stEXL : Nat := 2
def stPRIV : Nat := 1
def stIE : Nat := 0

def CoreSt.exl (c : CoreSt) : Bool := bitOf c.status stEXL
def CoreSt.priv (c : CoreSt) : Bool := bitOf c.status stPRIV
def CoreSt.ie (c : CoreSt) : Bool := bitOf c.status stIE

/-- STATUS on entry: EXL = 1, PRIV = 1, IE = 0, LPE = 0; the rest keeps its value (R122). -/
def entryStatus (w : Word) : Word := (w ||| 0x6) &&& ~~~(0x801 : Word)

/-- Exchange SP and SSP (R122, R125, R131). -/
def CoreSt.swapSp (c : CoreSt) : CoreSt := { c with sp := c.ssp, ssp := c.sp }

def isCc : Ctx → Bool
  | .cc => true
  | .se _ => false

/-- The cause of an exception as ECAUSE and EADDR record it (R119, R120). -/
structure Cause where
  num : Nat
  sub : Nat := 0
  acc : Nat := 0
  eaddr : Word := 0
  deriving DecidableEq, Repr

/-- ECAUSE (R120). -/
def ecauseWord (num sub acc : Nat) : Word := w32 (sub * 65536 + acc * 256 + num)

/-- Owner code of a context as a Store requester (R228): an engine answers for its erg. -/
def State.reqOf (s : State) : Ctx → Nat
  | .cc => 0x10
  | .se e => s.physOf e.val / 64

/-- READER code of STORE_UE_INFO (R246). -/
def readerOf : Ctx → Nat
  | .cc => 1
  | .se _ => 0

/-! ### Parking (R46, R48, R133) -/

/-- Record a leaf's fault in one face (R46). -/
def markFault (code e : Nat) (x : UnitSt) : UnitSt :=
  if bitOf x.fault 31 then { x with fault := x.fault ||| 0x40000000 }
  else { x with fault := w32 (2 ^ 31 + code * 65536 + e) }

/-- The fault action of the root whose tree has lost a leaf (R48). UNDERRUN and TRANSPARENT show at the next deadline. -/
def State.rootFaultAction (s : State) (u : Nat) : State :=
  match s.entryOfRoot (s.root u) with
  | some (h, r) => if s.get (F.ARRAY_ROOT_ACTION (4 * h + r)) = 2 then s.refugeTrigger F.SYS_REFUGE_CAUSE_ARRAY else s
  | none => s

/-- An engine parks on a fault with exception number `code` (R46). -/
def State.parkOnFault (s : State) (e : Nat) (code : Nat) : State :=
  let s := s.parkEngine e fun c => { c with faulted := true }
  let p := s.physOf e
  let s := s.onBit (F.ERG_FAULT_RIDGE (p / 64)) (p / 8 % 8)
  match s.unitOfEngine e with
  | none => s
  | some u => ((s.ancestry u).foldl (fun t v => t.modUnit v (markFault code e)) s).rootFaultAction u

/-! ### Entry (R122, R124, R129, R130, R133) -/

/-- Where a context's vector table may lie: the memory key of the word, if the region is allowed (R124). -/
def State.vectorKey (s : State) (c : Ctx) (a : Nat) : Option Nat :=
  match c with
  | .cc => if a < 0x10000 ∨ 0x100000 ≤ a ∧ a < 0x160000 then some a else none
  | .se e => if a < 0x1000 then some (privKey (s.physOf e.val) + a)
             else if 0x10000 ≤ a ∧ a < 0x20000 then some (ridgeKey (s.physOf e.val) + (a - 0x10000)) else none

/-- Cycles of the vector read (R124, R86). -/
def vectorCycles (c : Ctx) (a : Nat) : Nat :=
  match c with
  | .cc => 2
  | .se _ => if a < 0x1000 then 1 else 2

/-- The vector read of entry `n`: the handler's address, or the cause its failure raises (R124). -/
def State.vectorRead (s : State) (c : Ctx) (n : Nat) : (Word ⊕ Cause) × State :=
  let va := (s.core c).vbase + w32 (4 * n)
  match s.vectorKey c va.toNat with
  | none => (.inr { num := 6, sub := 1, acc := 6, eaddr := va }, s)
  | some k =>
    let r := s.readAs (readerOf c) va.toNat k 4
    let w := w32 (leNat r.1.1)
    if r.1.2 = .uncorr then (.inr { num := 5, acc := 6, eaddr := va }, r.2)
    else if bitsOf w 0 2 ≠ 0 then (.inr { num := 3, acc := 7, eaddr := w }, r.2)
    else (.inl w, r.2)

/-- Registers a double fault writes (R129): DFPC, ECAUSE, EADDR. -/
def CoreSt.doubleRegs (x : CoreSt) (epc : Word) (k : Cause) : CoreSt :=
  { x with dfpc := epc &&& ~~~(3 : Word), ecause := ecauseWord 11 k.num k.acc, eaddr := k.eaddr }

/-- STATUS, stack swap and reservation on entry (R122). -/
def CoreSt.enter (x : CoreSt) (c : Ctx) : CoreSt :=
  let x := if isCc c && !x.priv then x.swapSp else x
  { x with status := entryStatus x.status, resv := none }

/-- Lockup (R130). -/
def State.lockUp (s : State) (epc : Word) (k : Cause) : State :=
  s.modCore .cc fun x => { x.doubleRegs epc k with lockup := true, asleep := false }

/-- A handler address that the read of the vector at `va` brought is the ROM's default handler's (R132, R395): the table is the
ROM's own, or the address is one that it holds. -/
def romHandler (va w : Word) : Bool :=
  decide (0xFC00 ≤ va.toNat ∧ va.toNat < 0x10000) ||
    (decide (w.toNat < 0x10000) && (List.range 160).any fun n =>
      (decide (1 ≤ n ∧ n ≤ 11) || decide (32 ≤ n)) && romWordAt (0xFC00 + 4 * n) == w)

/-- The ROM's default handler (R132): EPC, ECAUSE, EADDR and DFPC go to the top 16 bytes of data memory, and the core then waits
for good. Where in the ROM its WAIT stands is a free value. -/
def State.runRomHandler (s : State) : State :=
  let x := s.cc
  let s := (((s.putWord 0x15FFF0 x.epc).putWord 0x15FFF4 x.ecause).putWord 0x15FFF8 x.eaddr).putWord 0x15FFFC x.dfpc
  { s with cc := { s.cc with pc := w32 (Config.pick s.freeCtr) &&& 0xFFFC, inRom := true }, freeCtr := s.freeCtr + 1 }

/-- The handler at `w`, which the vector at `va` named, can issue from time `t` on. -/
def State.toHandler (s : State) (c : Ctx) (va w : Word) (t : Nat) : State :=
  let s := s.modCore c fun x => { x with pc := w, ready := t }
  if isCc c && romHandler va w then s.runRomHandler else s

/-- A double fault (R129, R130, R133): the address `epc` would have gone to EPC. -/
def State.doubleFault (s : State) (c : Ctx) (epc : Word) (k : Cause) (t : Nat) : State :=
  match c with
  | .se e => (s.modCore c fun x => (x.doubleRegs epc k).enter c).parkOnFault e.val 11
  | .cc =>
    if bitsOf s.cc.ecause 0 8 = 11 then s.lockUp epc k
    else
      let s := s.modCore c fun x => (x.doubleRegs epc k).enter c
      match s.vectorRead c 11 with
      | (.inl w, s) => s.toHandler c (s.cc.vbase + 44) w (t + 5 * s.perOf c)
      | (.inr k', s) => s.lockUp epc k'

/-- Entry of a first exception or of an interrupt (R122): `n` is the vector entry and ECAUSE.NUMBER. -/
def State.enterFirst (s : State) (c : Ctx) (epc : Word) (k : Cause) (t : Nat) : State :=
  let s := s.modCore c fun x =>
    { x with epc := epc &&& ~~~(3 : Word), estat := x.status, ecause := ecauseWord k.num k.sub k.acc, eaddr := k.eaddr }
      |>.enter c
  let park := match c with
    | .se e => (s.engine e.val).faultPark
    | .cc => false
  match c, park with
  | .se e, true => s.parkOnFault e.val k.num
  | _, _ =>
    let va := (s.core c).vbase + w32 (4 * k.num)
    let t' := t + (3 + vectorCycles c va.toNat) * s.perOf c
    match s.vectorRead c k.num with
    | (.inl w, s') => s'.toHandler c va w t'
    | (.inr k', s') => s'.doubleFault c epc k' t'

/-- An instruction at PC raises an exception after occupying `cyc` cycles from its issue at time `t` (R119, R393). -/
def State.raise (s : State) (c : Ctx) (t cyc : Nat) (k : Cause) : State :=
  let pc := (s.core c).pc
  let t' := t + cyc * s.perOf c
  if (s.core c).exl then s.doubleFault c pc k t' else s.enterFirst c pc k t'

/-- ERET (R125). -/
def CoreSt.exReturn (x : CoreSt) (c : Ctx) : CoreSt :=
  let y := { x with pc := x.epc, status := if isCc c then x.estat else (x.estat ||| 2) &&& ~~~(1 : Word) }
  if isCc c && !(bitOf x.estat stPRIV) then y.swapSp else y

/-! ### Halts on events (R361, R362, R364) -/

/-- Halt a context now. A halt clears the reservation, and a product in flight lands first (R95, R362). -/
def CoreSt.haltNow (x : CoreSt) (why : Nat) : CoreSt :=
  let m := match x.products.getLast? with
    | some p => { x with mlo := p.2.setWidth 32, mhi := (p.2 >>> 32).setWidth 32 }
    | none => x
  { m with products := [], halted := true, reason := why, haltReq := none, resv := none, lockup := false }

/-- The logical engines of a leaf's root unit (R364). -/
def State.rootLeaves (s : State) (e : Nat) : List Nat :=
  match s.unitOfEngine e with
  | some u => s.leavesOf (s.root u)
  | none => [e]

/-- Halt context `c` now; a debug halt ends the control core's WAIT (R114). -/
def State.haltCtx (s : State) (c : Ctx) (why : Nat) : State :=
  s.modCore c fun x => { x.haltNow why with asleep := x.asleep && !isCc c }

/-- Ask a context to halt at its next boundary unless it is halted already. A leaf that sleeps or is parked stands at a
boundary and halts at once; it sleeps on, or stays parked (R362). -/
def CoreSt.askHalt (x : CoreSt) (why : Nat) : CoreSt :=
  if x.halted then x
  else if x.asleep || x.parked then x.haltNow why
  else { x with haltReq := some why }

/-- The same for context `c`. -/
def State.askHaltCtx (s : State) (c : Ctx) (why : Nat) : State :=
  s.modCore c fun x => { x.askHalt why with asleep := x.asleep && !isCc c }

/-- DBG_CMD_STATUS records an event halt: its reason, and the comparator (R364, R371). -/
def State.noteEvent (s : State) (why cmp : Nat) : State :=
  (s.put F.DBG_CMD_STATUS_EVREASON why).put F.DBG_CMD_STATUS_EVCMP (if why = 3 then cmp else 0)

/-- An event halt of context `c` with reason 2 (BRK) or 3 (comparator `cmp`), widened by EVSCOPE (R364, R371). -/
def State.eventHalt (s : State) (c : Ctx) (why cmp : Nat) : State :=
  match c with
  | .cc => (s.haltCtx c why).noteEvent why cmp
  | .se e =>
    let scope := s.get F.DBG_CTRL_EVSCOPE
    let s := s.haltCtx c why
    let s := if 1 ≤ scope then
        (s.rootLeaves e.val).foldl (fun t i => if i = e.val then t else t.modEngine i fun x => x.askHalt 6) s
      else s
    let s := if 2 ≤ scope then s.askHaltCtx .cc 6 else s
    ((s.noteEvent why cmp).put F.DBG_CMD_STATUS_EVENGINE e.val).on F.DBG_STATUS_UNITHALT

/-! ### Comparators (R370, R371) -/

/-- The unit or CTXID condition of a comparator. -/
def State.ctxMatches (s : State) (c : Ctx) (ctx : Nat) : Bool :=
  match c with
  | .cc => bitsOf s.cc.ctxid 0 12 == ctx
  | .se e => match s.unitOfEngine e.val with
    | some u => (s.ancestry u).contains ctx
    | none => false

/-- Comparator `k` matches an access of kind 0 fetch, 1 load, 2 store to bytes `bs` at `a` as the issuer sees them. -/
def State.cmpMatches (s : State) (k kind : Nat) (c : Ctx) (a : Nat) (bs : List Byte) : Bool :=
  let lo := (s.rd (R.DBG_CMP_LO k)).toNat
  let hi := (s.rd (R.DBG_CMP_HI k)).toNat
  let v := s.rd (R.DBG_CMP_VAL k)
  let kindOn := match kind with
    | 0 => s.flag (F.DBG_CMP_CTRL_FETCH k)
    | 1 => s.flag (F.DBG_CMP_CTRL_LOAD k)
    | _ => s.flag (F.DBG_CMP_CTRL_STORE k)
  let who := match s.get (F.DBG_CMP_CTRL_WHO k), c with
    | 0, .cc => true
    | 0, .se _ => false
    | 1, .cc => false
    | _, _ => true
  let lanes := (List.range bs.length).all fun i =>
    bs.getD i 0 == BitVec.ofNat 8 (v.toNat >>> (8 * ((a + i) % 4)))
  s.flag (F.DBG_CMP_CTRL_EN k) && kindOn && decide (lo ≤ hi ∧ a ≤ hi ∧ lo < a + bs.length) && who
    && (!s.flag (F.DBG_CMP_CTRL_VALEN k) || lanes)
    && (!s.flag (F.DBG_CMP_CTRL_CTXEN k) || s.ctxMatches c (s.get (F.DBG_CMP_CTRL_CTX k)))

/-- Whether comparator `k` acts: a linked pair acts only when both match, and its second member never acts itself. -/
def State.cmpActs (s : State) (k kind : Nat) (c : Ctx) (a : Nat) (bs : List Byte) : Bool :=
  let m := fun i => s.cmpMatches i kind c a bs
  if k % 2 = 0 then m k && (!s.flag (F.DBG_CMP_CTRL_LINK k) || m (k + 1))
  else m k && !s.flag (F.DBG_CMP_CTRL_LINK (k - 1))

/-- What the comparators make of an access: if one of those that act halts, the lowest that acts, which is what is recorded; with
the event-only ones noted in CMPEV. -/
def State.compare (s : State) (kind : Nat) (c : Ctx) (a : Nat) (bs : List Byte) : Option Nat × State :=
  if !s.flag F.DBG_CTRL_ATTACH then (none, s)
  else
    let acts := (List.range 4).filter fun k => s.cmpActs k kind c a bs
    let s := s.iff (acts.any fun k => s.flag (F.DBG_CMP_CTRL_ACTION k)) fun s => s.on F.DBG_STATUS_CMPEV
    (if acts.any fun k => !s.flag (F.DBG_CMP_CTRL_ACTION k) then acts.head? else none, s)

/-! ### The frame of an instruction (R86, R94, R105, R113) -/

/-- The mode lets the context's clock run: BOOT, FULL and LEAN; REFUGE for the control core, and for the engines on the way
out (R219, R221); HOLD for the control core from step 3 of a resume on (R217). Step 4 of an entry stops all (R214). -/
def State.clocked (s : State) (c : Ctx) : Bool :=
  decide (s.mode.entryStep < 4) &&
    match s.modeNow with
    | 1 | 2 | 3 => true
    | 5 => isCc c || s.mode.exitTo.isSome
    | 4 => isCc c && decide (3 ≤ s.mode.resumeStep)
    | _ => false

/-- The context executes instructions: started, awake, neither parked nor halted nor held inside an instruction, and
clocked. -/
def State.runnable (s : State) (c : Ctx) : Bool :=
  let x := s.core c
  x.started && !x.asleep && !x.inRom && !x.parked && !x.halted && !x.lockup && x.stalled.isNone && x.haltReq.isNone && s.clocked c

/-- Products due by time `t` have landed (R94, R95). -/
def landDue (t : Nat) (x : CoreSt) : List (Nat × BitVec 64) → CoreSt
  | [] => { x with products := [] }
  | (d, v) :: ps =>
    if d ≤ t then landDue t { x with mlo := v.setWidth 32, mhi := (v >>> 32).setWidth 32 } ps
    else { x with products := (d, v) :: ps }

/-- PC lies in the context's instruction space (R85). -/
def fetchable : Ctx → Word → Bool
  | .cc, pc => decide (pc.toNat < 0x10000 ∨ 0x100000 ≤ pc.toNat ∧ pc.toNat < 0x140000)
  | .se _, pc => decide (pc.toNat < 0x2000)

/-- Issue the instruction word `w` in context `c` and let `f` do the rest, given the issue time. A fetch outside the
instruction space raises exception 6 in its place (R85), a fetch comparator halts the context before it, once (R370, R371),
and a word that is no legal instruction raises exception 1 (R126). -/
def State.issueWord (s : State) (c : Ctx) (w : Word) (legal : Bool) (f : Nat → State → State) : State :=
  if !s.runnable c then s
  else
    let x := s.core c
    let t := max s.now x.ready
    let s := s.setCore c (landDue t { x with ready := t, skipCmp := none } x.products)
    if !fetchable c x.pc then s.raise c t 1 { num := 6, sub := 4, acc := 1, eaddr := x.pc }
    else
      let run := fun (s : State) => if legal then f t s else s.raise c t 1 { num := 1 }
      match s.compare 0 c x.pc.toNat (leBytes 4 w.toNat) with
      | (some k, s') =>
        if x.skipCmp == some x.pc then run s' else (s'.eventHalt c 3 k).modCore c fun y => { y with skipCmp := some x.pc }
      | (none, s') => run s'

/-- Issue instruction `i` in context `c`: it is legal by its operands and its context (R80, R97, R102, R104, R109 to R112). -/
def State.issue (s : State) (c : Ctx) (i : Instr) (f : Nat → State → State) : State :=
  s.issueWord c (encodeInsn i) (legalInsn i) f

/-- The loop-end check after the instruction at `a` (R105): level 1 first. -/
def CoreSt.loopEnd (x : CoreSt) (a : Word) : CoreSt :=
  if a = x.le1 ∧ x.lc1 ≠ 0 then
    if 1 < x.lc1.toNat then { x with lc1 := x.lc1 - 1, pc := x.ls1 } else { x with lc1 := 0 }
  else if a = x.le0 ∧ x.lc0 ≠ 0 then
    if 1 < x.lc0.toNat then { x with lc0 := x.lc0 - 1, pc := x.ls0 } else { x with lc0 := 0 }
  else x

/-- The instruction at PC completes after `cyc` cycles from `t` and execution goes on with the next one; `lpe` says
whether loop-end checks are active for it. -/
def CoreSt.retireAs (x : CoreSt) (lpe : Bool) (ready : Nat) : CoreSt :=
  let a := x.pc
  let y := { x with pc := a + 4, ready := ready }
  if lpe then y.loopEnd a else y
def CoreSt.retire (x : CoreSt) (ready : Nat) : CoreSt := x.retireAs (bitOf x.status stLPE) ready
def State.retire (s : State) (c : Ctx) (t cyc : Nat) : State :=
  s.modCore c fun x => x.retire (t + cyc * s.perOf c)

/-- A transfer to `target` (R84, R88); no loop-end check is made, and a bar of prediction ends (R88). Every instruction that
transfers control comes here, so that a SYSCALL, SYSRET or ERET ends the bar too; a loop-back and the entry of an exception or of an
interrupt do not, and leave it in force: the model's choice (log 117). -/
def State.transfer (s : State) (c : Ctx) (t cyc : Nat) (target : Word) : State :=
  s.modCore c fun x => { x with pc := target, ready := t + cyc * s.perOf c, barp := false }

end Sys2Proof.Machine
end

