-- ==== Sys2Proof/Machine/HeadRegs.lean ====
section
/-! DEFINITION. What a software write to a head's registers does (R148 to R153, R161, R162, R167, R168, R171, R173, R174,
R193, R194, R196), and the lead of R54. -/

namespace Sys2Proof.Machine

/-- A write by the access types of R5: RW bits take the value, ones clear W1C bits, every other bit keeps its own. -/
def State.maskWrite (s : State) (a : Nat) (v : Word) : State :=
  match regRow a with
  | some r =>
    let old := s.rd a
    s.wr a (((old &&& ~~~(w32 r.rw)) ||| (v &&& w32 r.rw)) &&& ~~~(v &&& w32 r.w1c))
  | none => s

/-- Draw a free value: the counter moves on. -/
def State.draw (s : State) : State := { s with freeCtr := s.freeCtr + 1 }

/-- One of several values the spec allows, by the free choice `Config.pick`. -/
def pickOf (k d : Nat) (l : List Nat) : Nat := l.getD (Config.pick k % l.length) d

/-! ### Composition settings (R148) -/

/-- LEAN is in force, or is being entered (R207, R210). -/
def State.leanShow (s : State) : Bool := s.modeNow == 3 || (s.flag F.SYS_MODE_TRANS && s.get F.SYS_MODE_TARGET == 3)
/-- The 6-bit output the registers and the mode ask for: DEPTH, always in LEAN, and on the way there from the head's own
switch on (R148, R210). -/
def State.depthWanted (s : State) (h : Nat) : Bool :=
  s.flag (F.HEAD_COMP_CTRL_DEPTH h) || s.modeNow == 3 || ((s.head h).leanVar && s.leanShow)
/-- The halved refresh that the variant and the mode ask for (R172). -/
def State.halfWanted (s : State) (h : Nat) : Bool := (s.head h).halfref && s.leanShow
/-- The depth in force. -/
def State.depth6 (s : State) (h : Nat) : Bool := if s.running h then (s.head h).depth6 else s.depthWanted h
/-- COMP_CTRL comes into force. -/
def State.latchComp (s : State) (h : Nat) : State :=
  let n := s.get (F.HEAD_COMP_CTRL_NLAYERS h)
  let d := s.flag (F.HEAD_COMP_CTRL_DITHER h)
  let six := s.depthWanted h
  s.modHead h fun x => { x with nlayers := n, dither := d, depth6 := six }

def State.compCtrlWrite (s : State) (h : Nat) (v : Word) : State :=
  let n := bitsOf v 0 4
  let v := if 2 ≤ n ∧ n ≤ 8 then v else setBits v 0 4 (s.get (F.HEAD_COMP_CTRL_NLAYERS h))
  let s := s.maskWrite (R.HEAD_COMP_CTRL h) v
  if s.running h then s else s.latchComp h

/-! ### Flips (R150, R151, R153) -/

/-- The next set of a layer as its registers hold it. -/
def State.nextSet (s : State) (h l : Nat) : SrcSet :=
  { srcfmt := s.rd (R.HEAD_L_SRCFMT h l), solid := s.rd (R.HEAD_L_SOLID h l), base := s.rd (R.HEAD_L_BASE h l),
    aux := s.rd (R.HEAD_L_AUX h l), aux2 := s.rd (R.HEAD_L_AUX2 h l), stride := s.rd (R.HEAD_L_STRIDE h l) }

/-- The fence sources of R151. -/
def fenceSrcOk (src : Nat) : Bool := decide (src ≤ 3) || decide (8 ≤ src ∧ src ≤ 0x10)

/-- Every REASON that R153 gives for refusing this FLIP write. -/
def flipCauses (c : SrcSet) (src : Nat) : List Nat :=
  let f := c.surf
  let kind := bitsOf c.srcfmt 30 2
  (if kind = 3 then [1] else []) ++
  (if kind = 0 ∧ (fmtReserved f.fmt || (isYuv f.fmt && f.csc == 3)) then [2] else []) ++
  (if kind = 0 ∧ !f.aligned then [3] else []) ++ (if fenceSrcOk src then [] else [4])

/-- A write to L_FLIP. -/
def State.flipWrite (s : State) (h l : Nat) (v : Word) : State :=
  if !bitOf v 0 then s
  else
    let c := s.nextSet h l
    let src := bitsOf v 8 6
    match flipCauses c src with
    | [] =>
      let fence : Option Fence := if bitOf v 1 then some { src := src, slot := bitsOf v 16 10 } else none
      let s := s.modLayer h l fun y => { y with pend := some c, fence := fence, timeout := bitsOf v 28 4 }
      ((((s.on (F.HEAD_L_FLIPSTAT_PENDING h l)).off (F.HEAD_L_FLIPSTAT_SIGNALLED h l)).off
        (F.HEAD_L_FLIPSTAT_REFUSED h l)).off (F.HEAD_L_FLIPSTAT_WAITED h l))
    | cs =>
      let r := pickOf s.freeCtr 1 cs
      (((s.on (F.HEAD_L_FLIPSTAT_REFUSED h l)).put (F.HEAD_L_FLIPSTAT_REASON h l) r).on
        (F.HEAD_COMP_STATUS_REFUSED h)).draw

/-- A write to FENCE_SIG: an armed fence of each named layer signals (R151). -/
def State.fenceSigWrite (s : State) (h : Nat) (v : Word) : State :=
  s.forEach 8 fun l s =>
    if bitOf v l && (s.layer h l).fence.isSome then s.on (F.HEAD_L_FLIPSTAT_SIGNALLED h l) else s

/-! ### The limits of R161 -/

/-- Lead that the limits count: the greater of the lead in force and the register's, which may not yet be in force. -/
def State.leadLimit (s : State) (h : Nat) : Nat := max (s.head h).lead (s.get (F.ARRAY_DISP_LEAD h))

/-- 65,536 × fVCO in units of 25 MHz, and PDIV, of the pixel PLL that clocks a head (R162, R169). -/
def State.pllOf (s : State) (h : Nat) : Nat × Nat :=
  (s.get (F.HEAD_PLL_A_NDIV h) * 65536 + s.get (F.HEAD_PLL_A_FRAC h), s.get (F.HEAD_PLL_B_PDIV h))

/-- fpix lies between lo and hi MHz. -/
def pixIn (p : Nat × Nat) (lo hi : Nat) : Bool :=
  decide (lo * 65536 * p.2 ≤ 25 * p.1 ∧ 25 * p.1 ≤ hi * 65536 * p.2)

/-- PLL fields and frequencies within R162. -/
def State.pllOk (s : State) (h : Nat) : Bool :=
  let n := s.get (F.HEAD_PLL_A_NDIV h)
  let d := s.get (F.HEAD_PLL_B_PDIV h)
  decide (48 ≤ n ∧ n ≤ 96) && (n != 96 || s.get (F.HEAD_PLL_A_FRAC h) == 0) && decide (4 ≤ d ∧ d ≤ 96)
    && pixIn (s.pllOf h) 25 300

/-- The clone's limit (R169): source running, no clone itself, of equal active size and totals. -/
def State.cloneOk (s : State) (h src : Nat) (t : Timing) : Bool :=
  let u := (s.head src).tim
  src != h && s.running src && !s.isClone src
    && t.hactive == u.hactive && t.vactive == u.vactive && t.htotal == u.htotal && t.vtotal == u.vtotal

/-- The first limit of R161 that fails, 0 if none, for timing `t` and a CTRL word; of a running head by the options that its PHY
started with (R168). -/
def State.limitFail (s : State) (h : Nat) (t : Timing) (ctrl : Word) : Nat :=
  let phy := bitsOf ctrl 2 2
  let clone := bitOf ctrl 30
  let src := bitsOf ctrl 28 2
  let p := s.pllOf (if clone then src else h)
  let cfg := if s.running h then (s.head h).phyRun else s.rd (R.HEAD_PHY_CFG h)
  let bpc := if s.depthWanted h then 6 else 8
  let lanes := match bitsOf cfg 12 2 with | 0 => 1 | 1 => 2 | _ => 4
  let rate := match bitsOf cfg 16 2 with | 0 => 1620 | 1 => 2700 | _ => 5400
  let even := fun n => n % 2 == 0
  if !(decide (16 ≤ t.hactive ∧ t.hactive ≤ 2560 ∧ 16 ≤ t.vactive ∧ t.vactive ≤ 2048)) then 1
  else if !(decide (1 ≤ t.hfp ∧ 1 ≤ t.hsync ∧ 1 ≤ t.hbp ∧ 32 ≤ t.hblank ∧ 1 ≤ t.vfp ∧ 1 ≤ t.vsync ∧ 1 ≤ t.vbp
      ∧ max 3 (s.leadLimit h + 1) ≤ t.v)) then 2
  else if !clone && !s.pllOk h then 4
  else if !(match phy with
      | 0 => pixIn p 50 170 | 1 => pixIn p 25 112 | 2 => pixIn p 25 300 | _ => false) then 3
  else if phy == 2 && (bitsOf cfg 16 2 == 3 || bitsOf cfg 12 2 == 3
      || !(decide (25 * p.1 * 3 * bpc * 10 ≤ lanes * rate * 8 * 65536 * p.2))) then 5
  else if clone && !s.cloneOk h src t then 6
  else if phy == 0 && !(even t.hactive && even t.hfp && even t.hsync && even t.hbp) then 7
  else if phy != 2 && bitOf cfg 0 && !s.flag (F.HEAD_COMP_CTRL_DEPTH h) then 8
  else 0

/-! ### Start and stop (R167, R168, R169) -/

/-- The PHY latency of R166 in whole pixel clocks: 10 for LVDS; for eDP 64 + ⌈10 bits at the lane rate in pixel clocks⌉. -/
def State.phyLat (s : State) (h : Nat) (cfg : Word) : Nat :=
  let c := s.rd (R.HEAD_CTRL h)
  if bitsOf c 2 2 = 2 then
    let p := s.pllOf (s.rasterOf h)
    let rate := match bitsOf cfg 16 2 with | 0 => 1620 | 1 => 2700 | _ => 5400
    let d := rate * 65536 * p.2
    64 + (10 * 25 * p.1 + d - 1) / d
  else 10

/-- The PLL has locked (or the clone's source clock is there): the PHY starts. LVDS links drive blanking, link B in dual link alone
(R164); a resume trains an eDP link with the settings of its last full training (R217). -/
def State.phyStart (s : State) (h : Nat) : State :=
  let phy := s.get (F.HEAD_CTRL_PHY h)
  let cfg := if (s.head h).fastTrain && phy == 2 then (s.head h).trained else s.rd (R.HEAD_PHY_CFG h)
  let s := s.wr (R.HEAD_PHY_LAT h) (w32 (s.phyLat h cfg))
  let s := s.modHead h fun x => { x with phyRun := cfg, lvdsA := if phy ≤ 1 then some [] else none,
                                         lvdsB := if phy = 0 then some [] else none }
  if phy = 2 then s.modHead h fun x => { x with phase := .training }
  else (s.on (F.HEAD_STATUS_PHYUP h)).modHead h fun x => { x with phase := .ready }

/-- A write of one to EN while RUN = 0 and no start is under way: the checks, then the PLL (R167 step 1). A clone runs on
its source's clock. -/
def State.startHead (s : State) (h : Nat) : State :=
  match s.limitFail h (s.timingRegs h) (s.rd (R.HEAD_CTRL h)) with
  | 0 =>
    let s := (s.put (F.HEAD_STATUS_CFGERR h) 0).modHead h fun x => { x with fastTrain := false }
    if s.isClone h then (s.on (F.HEAD_STATUS_PLLLOCK h)).phyStart h
    else s.modHead h fun x => { x with phase := .locking }
  | e => s.put (F.HEAD_STATUS_CFGERR h) e

/-- A start is abandoned before RUN sets (R167). -/
def State.abandonStart (s : State) (h : Nat) : State :=
  ((s.off (F.HEAD_STATUS_PHYUP h)).off (F.HEAD_STATUS_PLLLOCK h)).modHead h fun x =>
    { x with phase := .stopped, lvdsA := none, lvdsB := none, fastTrain := false }

/-- A write to HEAD_h_CTRL that changes CLONE, CLSRC or PHY of a running head: it is ignored (R168). -/
def State.ctrlBarred (s : State) (h : Nat) (v : Word) : Bool :=
  s.running h && decide ((v ^^^ s.rd (R.HEAD_CTRL h)) &&& 0x7000000C ≠ 0)

/-- A write to HEAD_h_CTRL. -/
def State.headCtrlWrite (s : State) (h : Nat) (v : Word) : State :=
  let run := s.running h
  if s.ctrlBarred h v then s else
  let s := s.maskWrite (R.HEAD_CTRL h) v
  if bitOf v 31 then
    if run then s.off (F.HEAD_STATUS_STOPPING h)
    else if (s.head h).phase == .stopped then s.startHead h else s
  else
    if run then s.on (F.HEAD_STATUS_STOPPING h)
    else if (s.head h).phase == .stopped then s else s.abandonStart h

/-! ### Timing and PLL writes (R162, R171) -/

/-- A write to one of the four timing registers (0 HTIM_A, 1 HTIM_B, 2 VTIM_A, 3 VTIM_B). -/
def State.timingWrite (s : State) (h r : Nat) (v : Word) : State :=
  let a := R.HEAD_HTIM_A h + 4 * r
  let t := s.maskWrite a v
  if !s.running h then t
  else
    let old := s.timingRegs h
    let new := t.timingRegs h
    if new.hactive ≠ old.hactive ∨ new.vactive ≠ old.vactive then s.put (F.HEAD_STATUS_CFGERR h) 1
    else match s.limitFail h new (s.rd (R.HEAD_CTRL h)) with
      | 0 => t
      | e => s.put (F.HEAD_STATUS_CFGERR h) e

/-- A write to PLL_A or PLL_B: only while RUN = 0. -/
def State.pllWrite (s : State) (h : Nat) (b : Bool) (v : Word) : State :=
  if s.running h then s.put (F.HEAD_STATUS_CFGERR h) 4
  else s.maskWrite (if b then R.HEAD_PLL_B h else R.HEAD_PLL_A h) v

/-- A write to ARRAY_DISP_h (R54): 1 to 8, and no more than the vertical blanking in the registers allows. -/
def State.leadWriteReg (s : State) (h : Nat) (v : Word) : State :=
  let l := bitsOf v 0 4
  let t := s.timingRegs h
  if 1 ≤ l ∧ l ≤ 8 ∧ l + 1 ≤ t.v then
    (s.put (F.ARRAY_DISP_LEAD h) l).modHead h fun x => { x with leadPend := some l }
  else s

/-! ### Beam-list memory and arming (R173, R174) -/

/-- Bank b is in force, pending or being checked; an empty list is pending like any other, and in force it is none. -/
def State.bankBusy (s : State) (h b : Nat) : Bool :=
  let x := s.head h
  let hit := fun (o : Option (Nat × Nat)) => match o with
    | some p => p.1 == b
    | none => false
  hit x.blAct || hit x.blPend || hit x.blCheck

/-- A word written into list memory; the key is its control-core address. -/
def State.blmemWriteWord (s : State) (h : Nat) (a : Nat) (v : Word) : State :=
  let b := (a % 0x10000 - 0x8000) / 0x4000
  if s.bankBusy h b then s.on (F.HEAD_EVT_STATUS_BLWERR h) else s.putWord a v

/-- A write to BL_CTRL starts the check, or is refused while one runs. -/
def State.blCtrlWrite (s : State) (h : Nat) (v : Word) : State :=
  if (s.head h).blCheck.isSome then (s.on (F.HEAD_EVT_STATUS_BLREF h)).put (F.HEAD_BL_STATUS_REASON h) 7
  else (s.on (F.HEAD_BL_STATUS_CHECKING h)).modHead h fun x =>
    { x with blCheck := some (bitsOf v 16 1, bitsOf v 0 11) }

/-! ### Check registers (R193, R194, R196, R199) -/

/-- The tick count of DVALID restarts: the half-period is the register's (R194). -/
def State.dvRestart (s : State) (h : Nat) : State :=
  let n := s.get (F.HEAD_DV_HALF_HALF h)
  s.modHead h fun x => { x with dvHalf := n }

def State.chkCtrlWrite (s : State) (h : Nat) (v : Word) : State :=
  let v := if bitsOf v 24 4 = 0 then setBits v 24 4 (s.get (F.HEAD_CHK_CTRL_MAXAGE h)) else v
  let was := s.flag (F.HEAD_CHK_CTRL_DVEN h)
  let s := s.maskWrite (R.HEAD_CHK_CTRL h) v
  if !was && bitOf v 31 then s.dvRestart h else s

/-- A write to CHK_STATUS: W1C, and after a clear of DVSTOP every enabled window must pass in a later frame (R196). -/
def State.chkStatusWrite (s : State) (h : Nat) (v : Word) : State :=
  let was := s.flag (F.HEAD_CHK_STATUS_DVSTOP h)
  let s := s.maskWrite (R.HEAD_CHK_STATUS h) v
  if was && bitOf v 30 then s.modHead h fun x => { x with dvArm := true, dvNeed := 0xFFFF } else s

def State.dvHalfWrite (s : State) (h : Nat) (v : Word) : State :=
  let n := bitsOf v 0 9
  if 50 ≤ n ∧ n ≤ 500 then s.put (F.HEAD_DV_HALF_HALF h) n else s

/-- EXIT requests the end of refuge view, unless the N1024 is in REFUGE (R193). -/
def State.rfgExitWrite (s : State) (h : Nat) (v : Word) : State :=
  if bitOf v 0 && s.modeNow != 5 && s.inRefugeView h then s.modHead h fun x => { x with rfgExit := true } else s

/-! ### The block -/

/-- A write to the register at offset `off` of head `h`'s block. -/
def State.headWrite (s : State) (h off : Nat) (v : Word) : State :=
  let a := 0x40100000 + 0x10000 * h + off
  if off = 0x0 then s.compCtrlWrite h v
  else if off = 0x10 then s.fenceSigWrite h v
  else if 0x100 ≤ off ∧ off < 0x300 ∧ off % 0x40 = 0x30 then s.flipWrite h ((off - 0x100) / 0x40) v
  else if off = 0x300 then s.headCtrlWrite h v
  else if 0x310 ≤ off ∧ off < 0x320 then s.timingWrite h ((off - 0x310) / 4) v
  else if off = 0x324 then s.pllWrite h false v
  else if off = 0x328 then s.pllWrite h true v
  else if off = 0x400 then s.blCtrlWrite h v
  else if off = 0x500 then s.chkCtrlWrite h v
  else if off = 0x504 then s.chkStatusWrite h v
  else if off = 0x510 then s.dvHalfWrite h v
  else if off = 0x518 then s.rfgExitWrite h v
  else if 0x8000 ≤ off then s.blmemWriteWord h a v
  else s.maskWrite a v

/-! ### Writes by the loader and the profile sequencer (R154, R185) -/

/-- A register-list write to a head: layer sources and windows land in both copies; CTRL keeps EN. -/
def State.headListWrite (s : State) (h off : Nat) (v : Word) : State :=
  let a := 0x40100000 + 0x10000 * h + off
  if 0x100 ≤ off ∧ off < 0x300 ∧ off % 0x40 = 0x30 then s.flipWrite h ((off - 0x100) / 0x40) v
  else if 0x100 ≤ off ∧ off < 0x300 then
    let l := (off - 0x100) / 0x40
    let s := s.maskWrite a v
    let c := s.nextSet h l
    match off % 0x40 with
    | 0x04 => s.modLayer h l fun y => { y with act := { y.act with srcfmt := c.srcfmt } }
    | 0x1C => s.modLayer h l fun y => { y with act := { y.act with solid := c.solid } }
    | 0x20 => (s.modLayer h l fun y => { y with act := { y.act with base := c.base } }).wr (R.HEAD_L_ACT_BASE h l) c.base
    | 0x24 => s.modLayer h l fun y => { y with act := { y.act with aux := c.aux } }
    | 0x28 => s.modLayer h l fun y => { y with act := { y.act with aux2 := c.aux2 } }
    | 0x2C => s.modLayer h l fun y => { y with act := { y.act with stride := c.stride } }
    | _ => s
  else if 0x600 ≤ off ∧ off < 0x800 then
    let n := (off - 0x600) / 0x20
    let s := s.maskWrite a v
    let w := s.rd a
    let y := (s.head h).win n
    match off % 0x20 with
    | 0x00 => (s.modWin h n fun y => { y with rectA := w }).iff (y.rectA != w) fun s => s.windowChanged h n
    | 0x04 => (s.modWin h n fun y => { y with rectB := w }).iff (y.rectB != w) fun s => s.windowChanged h n
    | 0x08 => (s.modWin h n fun y => { y with ctrl := w }).iff (bitOf w 31 && !bitOf y.ctrl 31) fun s => s.windowChanged h n
    | 0x0C => s.modWin h n fun y => { y with expect := w }
    | _ => s
  else if off = 0x300 then
    if s.ctrlBarred h v then s else s.maskWrite a ((v &&& 0x7FFFFFFF) ||| (s.rd a &&& 0x80000000))
  else s.headWrite h off v

end Sys2Proof.Machine
end

