-- ==== Sys2Proof/Machine/StoreRegs.lean ====
section
/-! DEFINITION. The Store block: ownership (R228 to R232), power states (R235), scrubber (R242, R243), march engine (R245),
and what a write to each of its registers does (R246). -/

namespace Sys2Proof.Machine

/-! ### Ownership -/

/-- The owner codes of R228. -/
def ownerCodeOk (c : Nat) : Bool := decide (c ≤ 0x16 ∨ 0x18 ≤ c ∧ c ≤ 0x1C ∨ c = 0x3F)

def bankBase (n : Nat) : Nat := 0x10000000 + 0x80000 * n

/-- Key k lies in bank n. -/
def inBank (n k : Nat) : Bool := decide (bankBase n ≤ k ∧ k < bankBase (n + 1))

/-- A write to STORE_OWNER_n (R230, R231). -/
def State.ownerWrite (s : State) (n : Nat) (v : Word) : State :=
  let c := bitsOf v 0 6
  let old := s.get (F.STORE_OWNER_OWNER n)
  if s.flag (F.STORE_OWNER_BUSY n) || s.flag (F.STORE_OWNER_LOCK n) || !s.bankOn n || !ownerCodeOk c then
    s.on F.STORE_STATUS_OWNREF
  else if c = old then s
  else (((s.put (F.STORE_OWNER_PREV n) old).put (F.STORE_OWNER_OWNER n) c).on (F.STORE_OWNER_BUSY n)).clearResv
    fun a => inBank n a

/-- The hand-over of bank n ends; `timeout` says that the limit ended it. -/
def State.ownerDone (s : State) (n : Nat) (timeout : Bool) : State :=
  ((s.off (F.STORE_OWNER_BUSY n)).on F.STORE_STATUS_HANDOVER).iff timeout fun s => s.on F.STORE_STATUS_HOTO

/-! ### Power states (R235, R240) -/

/-- The contents and check bits of a bank are lost: every byte is undefined until it is written. -/
def State.loseBank (s : State) (n : Nat) : State :=
  let s := s.clearKeys (inBank n)
  { s with undef := (bankBase n, bankBase (n + 1)) :: s.undef.filter fun p => !inBank n p.1 }

/-- The field of one bank in a write to STORE_PWR. -/
def State.pwrBank (s : State) (v : Word) (n : Nat) : State :=
  let f : Fld := ⟨R.STORE_PWR, 2 * n, 2⟩
  let old := s.get f
  let new := bitsOf v (2 * n) 2
  if new = 3 ∨ new = old ∨ natBit (s.get F.STORE_PWR_STATUS_COMING) n then s
  else if old = 0 then
    if s.get (F.STORE_OWNER_OWNER n) = 0x3F ∧ !s.flag (F.STORE_OWNER_LOCK n) ∧ !s.flag (F.STORE_OWNER_BUSY n) then
      (s.put f new).iff (new == 2) fun s => s.loseBank n
    else s.on F.STORE_STATUS_PWRREF
  else if s.flag (F.STORE_OWNER_LOCK n) then s
  else if new = 0 then (s.put f 0).onBit F.STORE_PWR_STATUS_COMING n
  else (s.put f new).iff (new == 2) fun s => s.loseBank n

def State.pwrWrite (s : State) (v : Word) : State := s.forEach 16 fun n s => s.pwrBank v n

/-! ### The scrubber (R242, R243) -/

/-- Write back the corrected bytes of a word, its lost bytes left as they are. -/
def State.rewriteWord (s : State) (a : Nat) : State :=
  s.forEach 4 fun i s => if s.inUndef (a + i) then s else s.putByte (a + i) (s.eccByte (a + i)).1

/-- The scrubber reads the word at a; `fix` says that a corrected word is rewritten. Answers whether it was corrected. -/
def State.scrubWord (s : State) (a : Nat) (fix : Bool) : Bool × State :=
  if !s.bankOn (bankOf a) then (false, s.on F.SCRUB_STATUS_SKIPPED)
  else
    let e := (s.eccBytes a 4).2
    let s := if (List.range 4).any fun i => s.inUndef (a + i) then s.draw else s
    let s := s.wr R.SCRUB_READ (s.rd R.SCRUB_READ + 1)
    let note := fun (s : State) =>
      (s.iff (s.rd R.SCRUB_ERRS == 0) fun s => s.wr R.SCRUB_FIRST (w32 a)).wr R.SCRUB_LAST (w32 a)
    match e with
    | .clean => (false, s)
    | .uncorr => (false, (note s).satUp F.SCRUB_ERRS_UNCORR)
    | .corr => (true, ((note s).satUp F.SCRUB_ERRS_CORR).iff fix fun s => s.rewriteWord a)

/-- Scrub n words from a on. -/
def State.scrubRun (fix : Bool) : Nat → Nat → State → State
  | 0, _, s => s
  | n + 1, a, s => State.scrubRun fix n (a + 4) (s.scrubWord a fix).2

/-- Scrub up to and including the next word that is corrected, if there is one; answers the word after it. -/
def State.scrubNext (fix : Bool) : Nat → Nat → State → Option (Nat × State)
  | 0, _, _ => none
  | n + 1, a, s =>
    let r := s.scrubWord a fix
    if r.1 then some (a + 4, r.2) else State.scrubNext fix n (a + 4) r.2

/-- Words from the scrubber's position to the END that GO checked. -/
def State.scrubLeft (s : State) : Nat := (s.store.scrubTo + 4 - s.store.scrubPos) / 4

def State.setScrubPos (s : State) (a : Nat) : State := { s with store := { s.store with scrubPos := a } }

/-- The scrub ends. -/
def State.scrubEnd (s : State) (aborted : Bool) : State :=
  (((s.off F.SCRUB_STATUS_BUSY).on F.SCRUB_STATUS_DONE).on F.STORE_STATUS_SCRUBDONE).iff aborted
    fun s => s.on F.SCRUB_STATUS_ABORTED

/-- A running scrub ends after the current row, by STOP or by HOLD entry. -/
def State.scrubAbort (s : State) : State :=
  if !s.flag F.SCRUB_STATUS_BUSY then s
  else
    let a := s.store.scrubPos
    let n := min s.scrubLeft (if a % 8 = 4 then 1 else 2)
    (State.scrubRun (s.flag F.SCRUB_CTRL_FIX) n a (s.setScrubPos (a + 4 * n))).scrubEnd true

def State.scrubGo (s : State) : State :=
  let a := (s.rd R.SCRUB_START).toNat
  let b := (s.rd R.SCRUB_END).toNat
  if s.flag F.SCRUB_STATUS_BUSY || !(inStore a && inStore b && decide (a ≤ b ∧ a % 4 = 0 ∧ b % 4 = 0)) then
    s.on F.SCRUB_STATUS_REFUSED
  else
    let s := ((((s.wr R.SCRUB_READ 0).wr R.SCRUB_ERRS 0).wr R.SCRUB_FIRST 0).wr R.SCRUB_LAST 0).on F.SCRUB_STATUS_BUSY
    { s with store := { s.store with scrubPos := a, scrubTo := b } }

/-- A write to SCRUB_CTRL: FIX is stored, then STOP and GO act. -/
def State.scrubCtrlWrite (s : State) (v : Word) : State :=
  let s := s.maskWrite R.SCRUB_CTRL v
  let s := if bitOf v 2 then s.scrubAbort else s
  if bitOf v 0 then s.scrubGo else s

/-! ### The march engine (R245) -/

def State.marchCtrlWrite (s : State) (v : Word) : State :=
  let busy := s.flag F.STORE_MARCH_STATUS_BUSY
  let s := s.maskWrite R.STORE_MARCH_CTRL v
  if !bitOf v 31 then s
  else
    let b := s.get F.STORE_MARCH_CTRL_BANK
    let keep := s.flag F.STORE_MARCH_CTRL_MODE
    if busy || !s.bankOn b || s.flag (F.STORE_OWNER_BUSY b) || s.get (F.STORE_OWNER_OWNER b) != 0x3F
        || (!keep && s.flag (F.STORE_OWNER_LOCK b)) then s.on F.STORE_MARCH_STATUS_REFUSED
    else
      let s := (s.on F.STORE_MARCH_STATUS_BUSY).put F.STORE_MARCH_STATUS_FAILCNT 0
      { s with store := { s.store with marchBank := b, marchKeep := keep } }

/-- Bytes of a bank whose stored check bits are wrong, or which have a failing cell (R244). -/
def State.badBytes (s : State) (n : Nat) : List Nat := (s.ecc.map (·.1) ++ s.boot.cells.map (·.1)).filter (inBank n)

/-- What a march leaves in its bank: zeros, or every correctable byte rewritten. -/
def State.marchContents (s : State) (n : Nat) (keep : Bool) : State :=
  if keep then
    (s.badBytes n).foldl (fun t k => if (t.eccByte k).2 = .corr && !t.inUndef k then t.putByte k (t.eccByte k).1 else t) s
  else { s.clearKeys (inBank n) with undef := s.undef.filter fun p => !inBank n p.1 }

/-! ### The block -/

/-- A W1C write whose VALID bit, cleared, also clears OVF (R3, R229, R239). -/
def State.validWrite (s : State) (a : Nat) (v : Word) (ovf : Fld) : State :=
  (s.maskWrite a v).iff (bitOf v 31) fun s => s.off ovf

/-- A write to the Store block. -/
def State.storeWrite (s : State) (off : Nat) (v : Word) : State :=
  let a := 0x40030000 + off
  if off = 0x10 then s.validWrite a v F.STORE_ACC_ERR_OVF
  else if off = 0x20 then s.pwrWrite v
  else if 0x40 ≤ off ∧ off < 0x80 then s.ownerWrite ((off - 0x40) / 4) v
  else if off = 0x140 then s.validWrite a v F.STORE_UE_INFO_OVF
  else if off = 0x180 then s.scrubCtrlWrite v
  else if off = 0x1C0 then s.marchCtrlWrite v
  else s.maskWrite a v

end Sys2Proof.Machine
end

