-- ==== Sys2Proof/Machine/Blit.lean ====
section
/-! DEFINITION. Sirocco (R247 to R259): the command list, the checks before the first write, traversal and transforms,
pixel operations, watermark and beam pacing. One command of the list runs whole at its BLIT row; a paced command runs one
destination row at each PACED_ROW_START. -/

namespace Sys2Proof.Machine

/-- Sirocco's requester code and its code in STORE_UE_INFO. -/
def blitReader : Reader := { req := 0x12, code := 4 }

/-! ### Commands (R248) -/

/-- A command's words by index. -/
def cmdWord (ws : List Word) (i : Nat) : Word := ws.getD i 0
def cmdOp (ws : List Word) : Nat := bitsOf (cmdWord ws 0) 28 4
def cmdRot (ws : List Word) : Nat := bitsOf (cmdWord ws 0) 26 2
def cmdMirX (ws : List Word) : Bool := bitOf (cmdWord ws 0) 25
def cmdMirY (ws : List Word) : Bool := bitOf (cmdWord ws 0) 24
def cmdOvl (ws : List Word) : Bool := bitOf (cmdWord ws 0) 23
def cmdPace (ws : List Word) : Bool := bitOf (cmdWord ws 0) 22
def cmdSX (ws : List Word) : Nat := bitsOf (cmdWord ws 3) 0 16
def cmdSY (ws : List Word) : Nat := bitsOf (cmdWord ws 3) 16 16
def cmdDX (ws : List Word) : Nat := bitsOf (cmdWord ws 4) 0 16
def cmdDY (ws : List Word) : Nat := bitsOf (cmdWord ws 4) 16 16
def cmdW (ws : List Word) : Nat := bitsOf (cmdWord ws 5) 0 16
def cmdH (ws : List Word) : Nat := bitsOf (cmdWord ws 5) 16 16
def cmdColor (ws : List Word) : Word := cmdWord ws 6
def cmdMark (ws : List Word) : Nat := bitsOf (cmdWord ws 7) 0 16
/-- Destination size (R252). -/
def cmdDW (ws : List Word) : Nat := if cmdRot ws % 2 = 1 then cmdH ws else cmdW ws
def cmdDH (ws : List Word) : Nat := if cmdRot ws % 2 = 1 then cmdW ws else cmdH ws

/-- Eight words as Sirocco reads them at `a`: the words, and 0, 9 or 0xA. -/
def State.blitWords (s : State) (a : Nat) : (List Word × Nat) × State :=
  let r := s.fetch blitReader a 32
  let code := match r.1.2 with | 0 => 0 | 1 => 9 | _ => 0xA
  (((List.range 8).map fun i => w32 (leNat ((r.1.1.drop (4 * i)).take 4)), code), r.2)

/-- A descriptor from its words (R249). -/
def surfOf (ws : List Word) : Surf :=
  { base := (cmdWord ws 0).toNat, aux := (cmdWord ws 1).toNat, aux2 := (cmdWord ws 2).toNat,
    stride := bitsOf (cmdWord ws 3) 0 16, cstride := bitsOf (cmdWord ws 3) 16 16, width := bitsOf (cmdWord ws 4) 0 16,
    height := bitsOf (cmdWord ws 4) 16 16, fmt := bitsOf (cmdWord ws 5) 0 4, csc := bitsOf (cmdWord ws 5) 4 2,
    premul := bitOf (cmdWord ws 5) 8 }

/-! ### Geometry (R251, R253) -/

/-- The planes of a surface: base, stride, bytes of `w` pixels from pixel `x`, rows of `h` from row `y`, as
(first byte of row 0, stride, offset in the row, bytes, first row, rows). -/
def Surf.planes (f : Surf) (x y w h : Nat) : List (Nat × Nat × Nat × Nat × Nat × Nat) :=
  let c := fun n => ((x + w + 1) / 2 - x / 2) * n
  let rows := (y + h + 1) / 2 - y / 2
  let blk := (x + w + 63) / 64 - x / 64
  match f.fmt with
  | 4 => [(f.base, f.stride, x, w, y, h), (f.aux, f.cstride, x / 2 * 2, c 2, y / 2, rows)]
  | 5 => [(f.base, f.stride, x, w, y, h), (f.aux, f.cstride, x / 2 * 2, c 2, y, h)]
  | 6 => [(f.base, f.stride, x, w, y, h), (f.aux, f.cstride, x / 2, c 1, y / 2, rows),
          (f.aux2, f.cstride, x / 2, c 1, y / 2, rows)]
  | 8 | 9 => [(f.base, f.stride, x / 64 * sandSlot f.fmt, blk * sandSlot f.fmt, y, h),
              (f.aux, f.cstride, x / 64, blk, y, h)]
  | _ => [(f.base, f.stride, x * bpp f.fmt, w * bpp f.fmt, y, h)]

/-- The bytes [a, b) lie within one Store bank or within DRAM. -/
def State.oneRegion (s : State) (a b : Nat) : Bool :=
  (inStore a && inStore (b - 1) && bankOf a == bankOf (b - 1)) || s.inDram a (b - a)

/-- Strides large enough and every plane in one region. -/
def State.surfFits (s : State) (f : Surf) : Bool :=
  decide (1 ≤ f.width ∧ 1 ≤ f.height) &&
    (f.planes 0 0 f.width f.height).all fun p =>
      decide (p.2.2.2.1 ≤ p.2.1) && s.oneRegion p.1 (p.1 + (p.2.2.2.2.2 - 1) * p.2.1 + p.2.2.2.1)

/-- Bytes [p, q) meet one of `n` rows of `len` bytes, `st` apart from `d` on. -/
def rowHits (d st len n p q : Nat) : Bool :=
  if q ≤ d ∨ n = 0 then false
  else
    let r := if st = 0 then n - 1 else min (n - 1) ((q - 1 - d) / st)
    decide (p < d + r * st + len)

/-- Whether the source rectangle's bytes meet the destination rectangle's (R253). -/
def overlap (sf df : Surf) (ws : List Word) : Bool :=
  let dst := df.planes (cmdDX ws) (cmdDY ws) (cmdDW ws) (cmdDH ws)
  (sf.planes (cmdSX ws) (cmdSY ws) (cmdW ws) (cmdH ws)).any fun p =>
    (List.range p.2.2.2.2.2).any fun i =>
      let a := p.1 + (p.2.2.2.2.1 + i) * p.2.1 + p.2.2.1
      dst.any fun d => rowHits (d.1 + d.2.2.2.2.1 * d.2.1 + d.2.2.1) d.2.1 d.2.2.2.1 d.2.2.2.2.2 a (a + p.2.2.2.1)

/-- A plain command (R253). -/
def plainCmd (sf df : Surf) (ws : List Word) : Bool :=
  cmdRot ws == 0 && !cmdMirX ws && !cmdMirY ws && sf.fmt == df.fmt && sf.stride == df.stride && sf.cstride == df.cstride

/-- The formats of R250, CSC of R141 included. -/
def fmtPairOk (op : Nat) (sf df : Surf) : Bool :=
  match op with
  | 2 => decide (df.fmt ≤ 3)
  | 3 | 4 => decide (df.fmt ≤ 3) && sf.fmt == df.fmt
  | 5 => [0, 2, 3, 8, 9].contains sf.fmt && decide (df.fmt ≤ 2)
  | _ => decide (sf.fmt ≤ 6 ∨ sf.fmt = 8 ∨ sf.fmt = 9) && !(isYuv sf.fmt && sf.csc == 3)
          && [0, 1, 2, 8, 9].contains df.fmt

/-- The beam line of the head that BLIT_PACE names. -/
def State.paceLine (s : State) : Int := (s.head (s.rasterOf (s.get F.BLIT_PACE_HEAD))).line

/-- Both descriptor addresses are multiples of 32 (R249); FILL has no source. -/
def descsAligned (ws : List Word) : Bool :=
  (cmdOp ws == 2 || decide ((cmdWord ws 1).toNat % 32 = 0)) && decide ((cmdWord ws 2).toNat % 32 = 0)

/-- The first failing check of R251, by code of R257; 0 if all pass. FILL has no source. -/
def State.blitCheck (s : State) (ws : List Word) (sf df : Surf) : Nat :=
  let op := cmdOp ws
  let fill := op == 2
  let ov := !fill && overlap sf df ws
  let sandBad := isSand df.fmt && (cmdRot ws != 0 || cmdMirX ws || cmdMirY ws || cmdDX ws != 0 || cmdW ws != df.width || ov)
  if !fmtPairOk op sf df || sandBad then 2
  else if !(descsAligned ws && (fill || sf.aligned) && df.aligned) then 3
  else if cmdW ws = 0 ∨ cmdH ws = 0 then 4
  else if !((fill || (s.surfFits sf && decide (cmdSX ws + cmdW ws ≤ sf.width ∧ cmdSY ws + cmdH ws ≤ sf.height)))
      && s.surfFits df && decide (cmdDX ws + cmdDW ws ≤ df.width ∧ cmdDY ws + cmdDH ws ≤ df.height)) then 5
  else if !(cmdMark ws == 0xFFFF || decide (cmdDY ws ≤ cmdMark ws ∧ cmdMark ws < cmdDY ws + cmdDH ws)) then 6
  else if ov && !plainCmd sf df ws && !cmdOvl ws then 7
  else if cmdPace ws && (cmdRot ws % 2 == 1 || cmdMirY ws || cmdOvl ws
      || !s.flag (F.HEAD_STATUS_RUN (s.get F.BLIT_PACE_HEAD))) then 8
  else 0

/-! ### Pixels (R254, R255) -/

/-- A native pixel in its 8-bit ARGB form. -/
def State.toArgb8 (s : State) (f : Surf) (w : Word) : Word :=
  let p := native10 f.fmt f.csc (fun i => s.rd (R.BLIT_PAL i)) w
  let c := fun v => min 255 ((v + 2) / 4)
  argb p.1 (c p.2.1) (c p.2.2.1) (c p.2.2.2)

/-- The stored bytes of a pixel in a format without blocks. -/
def packPixel (fmt : Nat) (w : Word) : List Byte :=
  match fmt with
  | 0 => leBytes 4 w.toNat
  | 1 => leBytes 3 w.toNat
  | 2 => leBytes 2 (pack565 w)
  | _ => leBytes 1 w.toNat

/-- BLEND of one pixel: source `w` over destination `d`, both in 8-bit form. -/
def blendPixel (premul dAlpha : Bool) (g : Nat) (w d : Word) : Word :=
  let a := d255 (pxA w * g)
  let c := fun x y =>
    if premul then (if a = 0 then y else min 255 (d255 (x * g) + d255 (y * (255 - a)))) else d255 (x * a + y * (255 - a))
  let da := if dAlpha then pxA d else 255
  argb (a + d255 (da * (255 - a))) (c (pxR w) (pxR d)) (c (pxG w) (pxG d)) (c (pxB w) (pxB d))

/-- Destination pixel of source pixel (i, j) (R252). -/
def blitTarget (ws : List Word) (i j : Nat) : Nat × Nat :=
  let w := cmdW ws
  let h := cmdH ws
  let i := if cmdMirX ws then w - 1 - i else i
  let j := if cmdMirY ws then h - 1 - j else j
  let o := match cmdRot ws with
    | 0 => (i, j) | 1 => (h - 1 - j, i) | 2 => (w - 1 - i, h - 1 - j) | _ => (j, w - 1 - i)
  (cmdDX ws + o.1, cmdDY ws + o.2)

/-- What a piece of a command came to: the error code and the failing address, code 0 none. -/
abbrev BlitRes := Nat × Nat

/-- Error code of a read that failed; a Sandpack block that does not decode is no error of R257. -/
def failCode (f : Nat) : Nat := match f with | 1 => 9 | 2 => 0xA | _ => 0

/-- Read source pixel (x, y) in native form. -/
def State.blitRead (s : State) (f : Surf) (x y : Nat) : (Word × BlitRes) × State :=
  let r := s.rowRead blitReader f x y 1
  if r.1.fail = 3 then ((Config.badSandpack r.2.freeCtr, 0, 0), r.2.draw)
  else ((r.1.px.getD 0 0, failCode r.1.fail, r.1.addr), r.2)

/-- Write a pixel's bytes. -/
def State.blitPut (s : State) (f : Surf) (x y : Nat) (bs : List Byte) : BlitRes × State :=
  let a := f.base + y * f.stride + x * bpp f.fmt
  let r := s.blockWrite 0x12 a bs
  (if r.1 then (0, 0) else (9, a), r.2)

/-- Perform the command for source pixel (i, j), the destination not being Sandpack. -/
def State.blitPixel (s : State) (ws : List Word) (sf df : Surf) (i j : Nat) : BlitRes × State :=
  let t := blitTarget ws i j
  match cmdOp ws with
  | 2 => s.blitPut df t.1 t.2 (packPixel df.fmt (cmdColor ws))
  | op =>
    let r := s.blitRead sf (cmdSX ws + i) (cmdSY ws + j)
    if r.1.2.1 ≠ 0 then (r.1.2, r.2)
    else
      let w := r.1.1
      match op with
      | 3 => r.2.blitPut df t.1 t.2 (packPixel df.fmt w)
      | 4 =>
        let hit := if sf.fmt = 3 then bitsOf w 0 8 == bitsOf (cmdColor ws) 0 8
                   else bitsOf w 0 24 == bitsOf (cmdColor ws) 0 24
        if hit then ((0, 0), r.2) else r.2.blitPut df t.1 t.2 (packPixel df.fmt w)
      | 5 =>
        let d := r.2.blitRead df t.1 t.2
        if d.1.2.1 ≠ 0 then (d.1.2, d.2)
        else d.2.blitPut df t.1 t.2 (packPixel df.fmt
          (blendPixel sf.premul (df.fmt == 0) (bitsOf (cmdColor ws) 0 8) (s.toArgb8 sf w) (s.toArgb8 df d.1.1)))
      | _ => r.2.blitPut df t.1 t.2 (packPixel df.fmt (s.toArgb8 sf w))

/-- The pixels of source row j in the given order of columns. -/
def State.blitCols (s : State) (ws : List Word) (sf df : Surf) (j : Nat) : List Nat → BlitRes × State
  | [] => ((0, 0), s)
  | i :: is =>
    let r := s.blitPixel ws sf df i j
    if r.1.1 ≠ 0 then r else r.2.blitCols ws sf df j is

/-- Source row j read whole, in 8-bit form, for a Sandpack destination. -/
def State.blitRowIn (s : State) (ws : List Word) (sf : Surf) (j : Nat) : List Nat → (List Word × BlitRes) × State
  | [] => (([], 0, 0), s)
  | i :: is =>
    let r := s.blitRead sf (cmdSX ws + i) (cmdSY ws + j)
    if r.1.2.1 ≠ 0 then (([], r.1.2), r.2)
    else
      let t := r.2.blitRowIn ws sf j is
      ((s.toArgb8 sf r.1.1 :: t.1.1, t.1.2), t.2)

/-- Encode and write the blocks of one destination row (R155, R156, R250). -/
def State.sandRow (s : State) (df : Surf) (y : Nat) (px : List Word) : List Nat → BlitRes × State
  | [] => ((0, 0), s)
  | b :: bs =>
    let val := fun i =>
      let w := px.getD (min (64 * b + i) (px.length - 1)) 0
      if df.fmt = 9 then pack565 w else w.toNat
    let e := sandEncode df.fmt ((List.range 64).map val)
    let sa := df.base + y * df.stride + b * sandSlot df.fmt
    let ha := df.aux + y * df.cstride + b
    let r := s.blockWrite 0x12 sa e.2
    if !r.1 then ((9, sa), r.2)
    else
      let q := r.2.blockWrite 0x12 ha [BitVec.ofNat 8 e.1]
      if !q.1 then ((9, ha), q.2) else q.2.sandRow df y px bs

/-- The traversal runs backwards (R253): a plain overlapping command whose destination lies above its source. -/
def blitDown (ws : List Word) (sf df : Surf) : Bool :=
  cmdOp ws != 2 && plainCmd sf df ws && overlap sf df ws &&
    decide (sf.base + cmdSY ws * sf.stride + cmdSX ws * bpp sf.fmt < df.base + cmdDY ws * df.stride + cmdDX ws * bpp df.fmt)

/-- One source row of the command. -/
def State.blitRow (s : State) (ws : List Word) (sf df : Surf) (j : Nat) : BlitRes × State :=
  if isSand df.fmt then
    let r := s.blitRowIn ws sf j (List.range (cmdW ws))
    if r.1.2.1 ≠ 0 then (r.1.2, r.2)
    else r.2.sandRow df (cmdDY ws + j) r.1.1 (List.range ((cmdW ws + 63) / 64))
  else
    let cols := List.range (cmdW ws)
    s.blitCols ws sf df j (if blitDown ws sf df then cols.reverse else cols)

/-- The destination row that source row j fills, where rows map to rows. -/
def rowOf (ws : List Word) (j : Nat) : Nat := (blitTarget ws 0 j).2

/-- Source rows in the order Sirocco runs them. A paced command runs destination rows upwards unless it must run down. -/
def blitOrder (ws : List Word) (sf df : Surf) : List Nat :=
  let up := List.range (cmdH ws)
  if blitDown ws sf df then up.reverse
  else if cmdPace ws && cmdRot ws == 2 then up.reverse else up

/-- Every destination row at or below WMARK is complete once the first `n` rows of the order are. -/
def markReached (ws : List Word) (order : List Nat) (n : Nat) : Bool :=
  cmdMark ws != 0xFFFF &&
    (if cmdRot ws % 2 = 1 then n == order.length
     else (order.drop n).all fun j => decide (cmdMark ws < rowOf ws j))

/-- The watermark sets when the n-th row of the order completes it. -/
def State.markRow (s : State) (ws : List Word) (order : List Nat) (n : Nat) : State :=
  if markReached ws order n && !markReached ws order (n - 1) then
    (s.on F.BLIT_STATUS_WMARK).wr R.BLIT_WROW (w32 (cmdMark ws))
  else s

/-- Rows n, n + 1, … of the order. -/
def State.blitRows (s : State) (ws : List Word) (sf df : Surf) (order : List Nat) : Nat → List Nat → BlitRes × State
  | _, [] => ((0, 0), s)
  | n, j :: js =>
    let r := s.blitRow ws sf df j
    if r.1.1 ≠ 0 then r else (r.2.markRow ws order (n + 1)).blitRows ws sf df order (n + 1) js

/-! ### The list (R247, R257, R258) -/

/-- Sirocco runs: a list is busy, no mode or freeze holds it (R219, R374). -/
def State.blitRuns (s : State) : Bool :=
  s.flag F.BLIT_STATUS_BUSY && !(s.flag F.DBG_FREEZE_BLIT && s.cc.halted)
    && (s.modeNow == 1 || s.modeNow == 2 || s.modeNow == 3)

/-- The command is done and Sirocco reaches the next one. -/
def State.blitAdvance (s : State) : State :=
  let s := { s with blit := { index := s.blit.index + 1 } }
  (s.wr R.BLIT_CUR (s.rd R.BLIT_CUR + 32)).off F.BLIT_STATUS_PACEWAIT

/-- A list stops on code `r.1`; codes 9 and 0xA record the data address, the others the command's. -/
def State.blitStopOn (s : State) (r : BlitRes) : State :=
  s.blitFail r.1 (if r.1 = 9 ∨ r.1 = 0xA then w32 r.2 else s.rd R.BLIT_CUR)

/-- The beam lies in the range of destination row `row` (R256). -/
def State.paceIn (s : State) (row : Nat) : Bool :=
  let y := (row : Int) + sgn 16 (s.get F.BLIT_PACE_OFFSET)
  decide (y - (s.get F.BLIT_PACE_N : Nat) ≤ s.paceLine ∧ s.paceLine ≤ y - 2)

/-- The beam has passed the range of destination row `row`. -/
def State.pacePast (s : State) (row : Nat) : Bool :=
  decide ((row : Int) + sgn 16 (s.get F.BLIT_PACE_OFFSET) - 2 < s.paceLine)

/-- Run the command whose words and descriptors stand: whole, or, paced, up to its first row. -/
def State.blitStart (s : State) (ws : List Word) (sf df : Surf) : State :=
  match s.blitCheck ws sf df with
  | 0 =>
    let order := blitOrder ws sf df
    if cmdPace ws then
      let s := { s with blit := { s.blit with paced := some { words := ws, src := sf, dst := df, row := 0 } } }
      s.iff (!s.paceIn (rowOf ws (order.getD 0 0))) fun s => s.on F.BLIT_STATUS_PACEWAIT
    else
      let r := s.blitRows ws sf df order 0 order
      if r.1.1 ≠ 0 then r.2.blitStopOn r.1 else r.2.blitAdvance
  | e => s.blitStopOn (e, 0)

/-- Reserved bits of a command that must be zero. -/
def cmdReservedOk (ws : List Word) : Bool := bitsOf (cmdWord ws 0) 0 22 == 0 && bitsOf (cmdWord ws 7) 16 16 == 0

/-- Read the two descriptors and start a command that is neither END nor NOP. A descriptor whose address is no multiple of 32 is read
where it stands, so that a FORMAT not allowed is found first, and is code 3 where it cannot be read (DESIGN CHOICE, log 129). -/
def State.blitDescs (s : State) (ws : List Word) : State :=
  let sa := (cmdWord ws 1).toNat
  let da := (cmdWord ws 2).toNat
  let stop := fun (t : State) (code a : Nat) => t.blitStopOn (if descsAligned ws then code else 3, a)
  if !cmdReservedOk ws then s.blitStopOn (1, 0)
  else
    let r := if cmdOp ws = 2 then (((([] : List Word), 0) : List Word × Nat), s) else s.blitWords sa
    if r.1.2 ≠ 0 then stop r.2 r.1.2 sa
    else
      let q := r.2.blitWords da
      if q.1.2 ≠ 0 then stop q.2 q.1.2 da
      else q.2.blitStart ws (surfOf r.1.1) (surfOf q.1.1)

/-- Sirocco reaches its next command, which is of the kind `op`: `f` is what it does. A command that cannot be read, or
whose OP is invalid, stops the list whichever kind was looked for. -/
def State.blitReach (s : State) (op : Nat) (f : List Word → State → State) : State :=
  if !s.blitRuns || s.blit.paced.isSome then s
  else
    let a := (s.rd R.BLIT_CUR).toNat
    let r := s.blitWords a
    if r.1.2 ≠ 0 then r.2.blitStopOn (r.1.2, a)
    else if 7 ≤ cmdOp r.1.1 then r.2.blitStopOn (1, 0)
    else if cmdOp r.1.1 = op then f r.1.1 r.2
    else s

/-- A write to BLIT_CTRL: STOP, then GO. -/
def State.blitCtrlWrite (s : State) (v : Word) : State :=
  let s := if bitOf v 1 then s.stopBlit else s
  if !bitOf v 0 then s
  else if s.flag F.BLIT_STATUS_BUSY then s.on F.BLIT_STATUS_REFUSED
  else { (s.on F.BLIT_STATUS_BUSY).wr R.BLIT_CUR (s.rd R.BLIT_LIST) with blit := {} }

/-- A write to the BLIT block. -/
def State.blitWrite (s : State) (off : Nat) (v : Word) : State :=
  let a := 0x40050000 + off
  let busy := s.flag F.BLIT_STATUS_BUSY
  if off = 0 then s.blitCtrlWrite v
  else if busy && (off == 0xC || off == 0x1C || decide (0x400 ≤ off ∧ off < 0x800)) then s.on F.BLIT_STATUS_REFUSED
  else if off = 0x1C then
    s.maskWrite a (if 2 ≤ bitsOf v 16 4 then v else setBits v 16 4 (s.get F.BLIT_PACE_N))
  else s.maskWrite a v

/-! ### The rows -/

/-- END: DONE sets, BUSY clears, and the fence event of R151 occurs. -/
def execBlitEnd (s : State) : Out := .next <| s.orHeld isBlit (.blit 0) <|
  s.blitReach 0 fun _ s => ((s.on F.BLIT_STATUS_DONE).off F.BLIT_STATUS_BUSY).fenceEvent 3 0

/-- NOP. -/
def execBlitNop (s : State) : Out := .next <| s.orHeld isBlit (.blit 1) <|
  s.blitReach 1 fun _ s => s.blitAdvance

/-- FILL (R249, R254). -/
def execBlitFill (s : State) : Out := .next <| s.orHeld isBlit (.blit 2) <|
  s.blitReach 2 fun ws s => s.blitDescs ws

/-- COPY (R253). -/
def execBlitCopy (s : State) : Out := .next <| s.orHeld isBlit (.blit 3) <|
  s.blitReach 3 fun ws s => s.blitDescs ws

/-- KEY (R254). -/
def execBlitKey (s : State) : Out := .next <| s.orHeld isBlit (.blit 4) <|
  s.blitReach 4 fun ws s => s.blitDescs ws

/-- BLEND (R255). -/
def execBlitBlend (s : State) : Out := .next <| s.orHeld isBlit (.blit 5) <|
  s.blitReach 5 fun ws s => s.blitDescs ws

/-- CONVERT (R254). -/
def execBlitConvert (s : State) : Out := .next <| s.orHeld isBlit (.blit 6) <|
  s.blitReach 6 fun ws s => s.blitDescs ws

/-- Sirocco looks at the next row of a paced command (R256): in range it runs to completion; otherwise Sirocco waits, and
LATE sets where a row other than the first was reached too late. -/
def execPacedRowStart (s : State) : Out := .next <| s.orHeld isBlit .blitRow <|
  match s.blit.paced with
  | none => s
  | some p =>
    if !s.blitRuns then s
    else
      let order := blitOrder p.words p.src p.dst
      let row := rowOf p.words (order.getD p.row 0)
      if s.paceIn row then
        let s := s.off F.BLIT_STATUS_PACEWAIT
        let r := s.blitRow p.words p.src p.dst (order.getD p.row 0)
        if r.1.1 ≠ 0 then r.2.blitStopOn r.1
        else
          let s := r.2.markRow p.words order (p.row + 1)
          if p.row + 1 < order.length then { s with blit := { s.blit with paced := some { p with row := p.row + 1 } } }
          else s.blitAdvance
      else
        let late := decide (0 < p.row) && !s.flag F.BLIT_STATUS_PACEWAIT && s.pacePast row
        (s.on F.BLIT_STATUS_PACEWAIT).iff late fun s => s.on F.BLIT_STATUS_LATE

end Sys2Proof.Machine
end

