-- ==== Sys2Proof/Machine/DmaRegs.lean ====
section
/-! DEFINITION. DMA channels: checks, start, arming, stop and timer events (R260 to R267), and the register writes of the
DMA block (R274). The element moves stand in Machine/Dma.lean. -/

namespace Sys2Proof.Machine

/-- Element size in bytes. -/
def State.dmaE (s : State) (n : Nat) : Nat := 2 ^ s.get (F.DMA_CH_CTRL_ESIZE n)

/-- The first failing check of R264, by CODE; 0 if all pass. -/
def State.dmaCheck (s : State) (n : Nat) : Nat :=
  let e := s.dmaE n
  let al := fun a => (s.rd a).toNat % e == 0
  let swap := s.get (F.DMA_CH_CTRL_SWAP n)
  if s.get (F.DMA_CH_CNT01_C0 n) = 0 ∨ s.get (F.DMA_CH_CNT01_C1 n) = 0 ∨ s.get (F.DMA_CH_CNT2_C2 n) = 0 then 1
  else if !(al (R.DMA_CH_SRC n) && al (R.DMA_CH_DST n)
      && [0, 1, 2].all fun i => al (R.DMA_CH_SSTEP n i) && al (R.DMA_CH_DSTEP n i)) then 2
  else if (swap = 1 ∧ e < 2) ∨ (2 ≤ swap ∧ e < 4) then 3
  else 0

/-- A start or an arming is refused with CODE `c`. -/
def State.dmaRefuse (s : State) (n c : Nat) : State := (s.on (F.DMA_CH_STATUS_ERR n)).put (F.DMA_CH_STATUS_CODE n) c

/-- Show the position of the next element. -/
def State.dmaShowPos (s : State) (n k0 k1 k2 : Nat) : State :=
  ((s.put (F.DMA_CH_POS01_K0 n) k0).put (F.DMA_CH_POS01_K1 n) k1).put (F.DMA_CH_POS2_K2 n) k2

/-- The channel starts from k0 = k1 = k2 = 0. -/
def State.dmaStart (s : State) (n : Nat) : State :=
  (((s.off (F.DMA_CH_STATUS_ARMED n)).on (F.DMA_CH_STATUS_BUSY n)).dmaShowPos n 0 0 0).setDma n {}

/-- GO (R264). -/
def State.dmaGo (s : State) (n : Nat) : State :=
  if s.flag (F.DMA_CH_STATUS_BUSY n) || s.flag (F.DMA_CH_STATUS_ARMED n) then s.on (F.DMA_CH_STATUS_REFUSED n)
  else match s.dmaCheck n with
    | 0 => s.dmaStart n
    | c => s.dmaRefuse n c

/-- ARM (R265). -/
def State.dmaArm (s : State) (n : Nat) : State :=
  if s.flag (F.DMA_CH_STATUS_BUSY n) || s.flag (F.DMA_CH_STATUS_ARMED n) then s.on (F.DMA_CH_STATUS_REFUSED n)
  else match s.dmaCheck n with
    | 0 => if 40 ≤ s.get (F.DMA_CH_CTRL_TRIG n) then s.dmaRefuse n 7 else s.on (F.DMA_CH_STATUS_ARMED n)
    | c => s.dmaRefuse n c

/-- STOP (R266): a channel whose last burst has completed completes all the same. -/
def State.dmaStop (s : State) (n : Nat) : State :=
  let s := s.off (F.DMA_CH_STATUS_ARMED n)
  if s.flag (F.DMA_CH_STATUS_BUSY n) && !(s.dmaSt n).moved then (s.off (F.DMA_CH_STATUS_BUSY n)).dmaRefuse n 6 else s

/-- A timer event with TRIG code `ev` (R265): every armed channel that selects it starts; a busy channel that selects it records
TRIGOVR. -/
def State.dmaEvent (s : State) (ev : Nat) : State :=
  s.forEach 8 fun n s =>
    if s.get (F.DMA_CH_CTRL_TRIG n) ≠ ev then s
    else if s.flag (F.DMA_CH_STATUS_ARMED n) then s.dmaStart n
    else s.iff (s.flag (F.DMA_CH_STATUS_BUSY n)) fun s => s.on (F.DMA_CH_STATUS_TRIGOVR n)

/-- A write to DMA_CHn_CTRL. -/
def State.dmaCtrlWrite (s : State) (n : Nat) (v : Word) : State :=
  if s.flag (F.DMA_CH_STATUS_BUSY n) || s.flag (F.DMA_CH_STATUS_ARMED n) then
    let s := s.iff (!bitOf v 30 || bitOf v 31 || bitOf v 29) fun s => s.on (F.DMA_CH_STATUS_REFUSED n)
    s.iff (bitOf v 30) fun s => s.dmaStop n
  else
    let s := s.maskWrite (R.DMA_CH_CTRL n) v
    let s := s.iff (bitOf v 31) fun s => s.dmaGo n
    s.iff (bitOf v 29) fun s => s.dmaArm n

/-- A write to the DMA block. Every register of a busy or armed channel but CTRL.STOP is closed (R264); offset 0x3C holds none. -/
def State.dmaWrite (s : State) (off : Nat) (v : Word) : State :=
  let a := 0x40060000 + off
  if off < 0x100 ∨ 0x300 ≤ off then s.maskWrite a v
  else
    let n := (off - 0x100) / 0x40
    let r := (off - 0x100) % 0x40
    if r = 0 then s.dmaCtrlWrite n v
    else if r != 0x3C && (s.flag (F.DMA_CH_STATUS_BUSY n) || s.flag (F.DMA_CH_STATUS_ARMED n)) then s.on (F.DMA_CH_STATUS_REFUSED n)
    else s.maskWrite a v

/-- DMA_ACTIVE. -/
def State.dmaActive (s : State) : Word :=
  w32 (maskOf 8 (fun n => s.flag (F.DMA_CH_STATUS_BUSY n)) + 256 * maskOf 8 (fun n => s.flag (F.DMA_CH_STATUS_ARMED n)))

/-- The last move completes (R267). -/
def execDmaComplete (n : ChanNo) (s : State) : Out := .next <|
  let n := n.val
  if s.flag (F.DMA_CH_STATUS_BUSY n) && (s.dmaSt n).moved then
    let s := (((s.off (F.DMA_CH_STATUS_BUSY n)).on (F.DMA_CH_STATUS_DONE n)).setDma n {}).fenceEvent (8 + n) 0
    s.iff (s.flag (F.DMA_CH_CTRL_REARM n)) fun s => s.on (F.DMA_CH_STATUS_ARMED n)
  else s

end Sys2Proof.Machine
end

