-- ==== Sys2Proof/Machine/Cam.lean ====
section
/-! DEFINITION. The camera receivers (R268 to R273, R275). -/

namespace Sys2Proof.Machine

/-- Row length in bytes and rows of each plane an output has: (luma), (chroma), and whether a third plane exists. -/
def camPlanes (out w h : Nat) : List (Nat × Nat) :=
  match out with
  | 0 => [(w, h), (w, h / 2)]
  | 1 => [(w, h), (w, h)]
  | 2 => [(w, h), (w / 2, h / 2), (w / 2, h / 2)]
  | 3 => [(w, h)]
  | _ => [(2 * w, h)]

/-- OUT and data type are a pair of R269. -/
def camPair (out dt : Nat) : Bool :=
  match out with
  | 0 | 2 => dt == 0x1E || dt == 0x18
  | 1 => dt == 0x1E
  | 3 => dt == 0x2A
  | 4 => dt == 0x2B
  | _ => false

/-- The first failing check of R270, 0 if none. -/
def State.camCheck (s : State) (n : Nat) : Nat :=
  let w := s.get (F.CAM_SIZE_WIDTH n)
  let h := s.get (F.CAM_SIZE_HEIGHT n)
  let st := s.get (F.CAM_STRIDE_STRIDE n)
  let cs := s.get (F.CAM_STRIDE_CSTRIDE n)
  let out := s.get (F.CAM_FMT_OUT n)
  let ps := camPlanes out w h
  let dim := fun d => decide (d % 2 = 0 ∧ 2 ≤ d ∧ d ≤ 4096)
  if !camPair out (s.get (F.CAM_FMT_DT n)) then 1
  else if !(dim w && dim h) then 2
  else if !decide (st % 4 = 0 ∧ cs % 4 = 0 ∧ (ps.getD 0 (0, 0)).1 ≤ st ∧ (ps.getD 1 (0, 0)).1 ≤ cs) then 3
  else if s.get (F.CAM_PHY_LANES n) = 3 then 4
  else 0

/-- The receiver stops at once: the frame in progress ends with no completion and no count. -/
def State.camStop (s : State) (n : Nat) : State :=
  ((s.off (F.CAM_STATUS_RUN n)).off (F.CAM_STATUS_INFRAME n)).dropHeld (isCamera n)

/-- A write to CAM_n_CTRL. NBUF is closed while EN = 1. -/
def State.camCtrlWrite (s : State) (n : Nat) (v : Word) : State :=
  let en := s.flag (F.CAM_CTRL_EN n)
  let nbuf := s.get (F.CAM_CTRL_NBUF n)
  let s := s.iff (en && bitsOf v 16 2 != nbuf) fun s => s.on (F.CAM_STATUS_REFUSED n)
  let s := s.maskWrite (R.CAM_CTRL n) (if en then setBits v 16 2 nbuf else v)
  if !bitOf v 31 then s.camStop n
  else if s.flag (F.CAM_STATUS_RUN n) then s
  else match s.camCheck n with
    | 0 => ((s.put (F.CAM_STATUS_CFGERR n) 0).on (F.CAM_STATUS_RUN n)).setCam n {}
    | e => s.put (F.CAM_STATUS_CFGERR n) e

/-- A write to the CAM block. -/
def State.camWrite (s : State) (off : Nat) (v : Word) : State :=
  let a := 0x40070000 + off
  if 0x200 ≤ off then s.maskWrite a v
  else
    let n := off / 0x100
    let r := off % 0x100
    if r = 0 then s.camCtrlWrite n v
    else if s.flag (F.CAM_CTRL_EN n) && (r == 0x8 || r == 0xC || r == 0x10 || r == 0x14) then
      s.on (F.CAM_STATUS_REFUSED n)
    else s.maskWrite a v

/-! ### Frames -/

/-- The receiver works: it runs, and the mode runs it (R219). -/
def State.camRuns (s : State) (n : Nat) : Bool :=
  s.flag (F.CAM_STATUS_RUN n) && (s.modeNow == 1 || s.modeNow == 2 || s.modeNow == 3)

/-- The frame is bad with this cause (R272); a bad frame completes nothing, and the receiver waits for the next one. -/
def State.camBad (s : State) (n cause : Nat) (addr : Nat) : State :=
  let s := ((s.on (F.CAM_STATUS_BAD n)).satUp (F.CAM_ERRCNT_BAD n)).put (F.CAM_ERR_INFO_CAUSE n) cause
  let s := s.iff (cause == 7) fun s => s.wr (R.CAM_ERR_ADDR n) (w32 addr)
  (s.off (F.CAM_STATUS_INFRAME n)).setCam n { s.camSt n with ended := false, lines := 0 }

/-- A good frame completes (R273). -/
def State.camDone (s : State) (n : Nat) : State :=
  let c := s.camSt n
  let b := s.get (F.CAM_STATUS_WBUF n)
  let s := (s.put (F.CAM_DONE_INFO_BUF n) b).put (F.CAM_DONE_INFO_FRM n) c.frameNum
  let s := ((s.wr (R.CAM_FRAME n) (s.rd (R.CAM_FRAME n) + 1)).on (F.CAM_STATUS_DONE n)).off (F.CAM_STATUS_INFRAME n)
  (s.setCam n { c with ended := false, lines := 0, lastDone := some b }).fenceEvent (1 + n) 0

/-- The buffer a frame start takes: the first unlocked one from the candidate on (R271). -/
def camChoose (lock nbuf : Nat) (first : Nat) : Option Nat :=
  ((List.range nbuf).map fun i => (first + i) % nbuf).find? fun b => !natBit lock b

/-- Every plane of the chosen buffer lies within one Store bank or within DRAM. -/
def State.camFits (s : State) (n : Nat) (c : CamSt) : Bool :=
  let ps := camPlanes (s.get (F.CAM_FMT_OUT n)) (s.get (F.CAM_SIZE_WIDTH n)) (s.get (F.CAM_SIZE_HEIGHT n))
  let st := s.get (F.CAM_STRIDE_STRIDE n)
  let cs := s.get (F.CAM_STRIDE_CSTRIDE n)
  ((([c.ybase, c.aux, c.aux2] : List Nat).zip [st, cs, cs]).zip ps).all fun p =>
    s.oneRegion p.1.1 (p.1.1 + (p.2.2 - 1) * p.1.2 + p.2.1)

/-- A frame start packet for the receiver. -/
def State.camStart (s : State) (n num : Nat) : State :=
  let s := if (s.camSt n).ended then s.camDone n else s
  let s := if s.flag (F.CAM_STATUS_INFRAME n) then s.camBad n 5 0 else s
  let drop := fun (s : State) => (s.on (F.CAM_STATUS_DROP n)).satUp (F.CAM_ERRCNT_DROP n)
  let nbuf := s.get (F.CAM_CTRL_NBUF n) + 1
  let first := match (s.camSt n).lastDone with
    | some b => (b + 1) % nbuf
    | none => 0
  if s.flag F.DBG_FREEZE_CAM && s.cc.halted then drop s
  else match camChoose (s.get (F.CAM_LOCK_LOCK n)) nbuf first with
    | none => drop s
    | some b =>
      let c : CamSt := { s.camSt n with
        ybase := (s.rd (R.CAM_YBASE n b)).toNat, aux := (s.rd (R.CAM_AUX n b)).toNat,
        aux2 := (s.rd (R.CAM_AUX2 n b)).toNat, lines := 0, frameNum := num, ended := false }
      let s := ((s.put (F.CAM_STATUS_WBUF n) b).on (F.CAM_STATUS_INFRAME n)).setCam n c
      if s.camFits n c then s else s.camBad n 6 0

/-! ### Lines (R269). The payload layouts are those of MIPI CSI-2, which R268 names. -/

def byteAt (bs : List Byte) (i : Nat) : Nat := (bs.getD i 0).toNat

/-- Pixels of a payload, `none` where its length is no line of the data type; `odd` says the line's parity. -/
def camPixels (dt : Nat) (odd : Bool) (len : Nat) : Option Nat :=
  match dt with
  | 0x1E => if len % 4 = 0 then some (len / 2) else none
  | 0x18 => if odd then (if len % 4 = 0 then some (len / 2) else none) else some len
  | 0x2A => some len
  | _ => if len % 5 = 0 then some (len / 5 * 4) else none

/-- Luma of pixel x: UYVY order, or one byte per pixel on the luma-only lines of 4:2:0. -/
def camLuma (dt : Nat) (odd : Bool) (bs : List Byte) (x : Nat) : Nat :=
  if dt = 0x18 ∧ !odd then byteAt bs x else byteAt bs (2 * x + 1)

/-- The bytes of the luma or RAW row. -/
def camYRow (dt : Nat) (odd : Bool) (w : Nat) (bs : List Byte) : List Byte :=
  match dt with
  | 0x2A => bs
  | 0x2B => (List.range w).flatMap fun x =>
      leBytes 2 (byteAt bs (x / 4 * 5 + x % 4) * 4 + byteAt bs (x / 4 * 5 + 4) / 4 ^ (x % 4) % 4)
  | _ => (List.range w).map fun x => BitVec.ofNat 8 (camLuma dt odd bs x)

/-- The chroma row of a line that carries one: Cb and Cr of pixel pair i are bytes 4i and 4i + 2. -/
def camCb (w : Nat) (bs : List Byte) : List Byte := (List.range (w / 2)).map fun i => bs.getD (4 * i) 0
def camCr (w : Nat) (bs : List Byte) : List Byte := (List.range (w / 2)).map fun i => bs.getD (4 * i + 2) 0
def camCbCr (w : Nat) (bs : List Byte) : List Byte := (List.range (w / 2)).flatMap fun i => [bs.getD (4 * i) 0, bs.getD (4 * i + 2) 0]

/-- The writes of line y, as (address, bytes). -/
def State.camWrites (s : State) (n y : Nat) (bs : List Byte) : List (Nat × List Byte) :=
  let c := s.camSt n
  let w := s.get (F.CAM_SIZE_WIDTH n)
  let st := s.get (F.CAM_STRIDE_STRIDE n)
  let cs := s.get (F.CAM_STRIDE_CSTRIDE n)
  let dt := s.get (F.CAM_FMT_DT n)
  let out := s.get (F.CAM_FMT_OUT n)
  let odd := y % 2 == 1
  let hasChroma := if dt = 0x18 then odd else if out = 1 then true else !odd
  let cy := if out = 1 then y else y / 2
  (c.ybase + y * st, camYRow dt odd w bs) ::
    (if 3 ≤ out ∨ !hasChroma then []
     else if out = 2 then [(c.aux + cy * cs, camCb w bs), (c.aux2 + cy * cs, camCr w bs)]
     else [(c.aux + cy * cs, camCbCr w bs)])

/-- Make the writes in order until one is refused; answers the refused address. -/
def State.camStore (s : State) (n : Nat) : List (Nat × List Byte) → Option Nat × State
  | [] => (none, s)
  | (a, bs) :: ws =>
    let r := s.blockWrite (0x13 + n) a bs
    if r.1 then r.2.camStore n ws else (some a, r.2)

/-- A frame start packet (R271). -/
def execFrameStartPacket (n : PortNo) (vc : BitVec 2) (num : BitVec 16) (s : State) : Out := .next <|
  s.orHeld (isCamera n) (.frameStart n vc num) <|
  if s.camRuns n.val && vc.toNat == s.get (F.CAM_FMT_VC n.val) then s.camStart n.val num.toNat else s

/-- A long packet (R269, R272): a line of the frame in progress, or what makes the frame bad. -/
def execCsiLongPacket (n : PortNo) (vc : BitVec 2) (dt : BitVec 6) (hdrOk crcOk : Bool) (bytes : List Byte)
    (s : State) : Out := .next <| s.orHeld (isCamera n) (.csiLine n vc dt hdrOk crcOk bytes) <|
  let n := n.val
  let c := s.camSt n
  let y := c.lines
  if !s.camRuns n || !s.flag (F.CAM_STATUS_INFRAME n) || c.ended then s
  else if !hdrOk then s.camBad n 1 0
  else if vc.toNat ≠ s.get (F.CAM_FMT_VC n) ∨ dt.toNat ≠ s.get (F.CAM_FMT_DT n) then s
  else if s.get (F.CAM_SIZE_HEIGHT n) ≤ y then s.camBad n 4 0
  else if camPixels dt.toNat (y % 2 == 1) bytes.length ≠ some (s.get (F.CAM_SIZE_WIDTH n)) then s.camBad n 3 0
  else
    let r := s.camStore n (s.camWrites n y bytes)
    match r.1 with
    | some a => r.2.camBad n 7 a
    | none => if crcOk then r.2.setCam n { c with lines := y + 1 } else r.2.camBad n 2 0

/-- A frame end packet (R272, R273). -/
def execFrameEndPacket (n : PortNo) (vc : BitVec 2) (s : State) : Out := .next <|
  s.orHeld (isCamera n) (.frameEnd n vc) <|
  let n := n.val
  let c := s.camSt n
  if !s.camRuns n || !s.flag (F.CAM_STATUS_INFRAME n) || c.ended || vc.toNat != s.get (F.CAM_FMT_VC n) then s
  else if c.lines = s.get (F.CAM_SIZE_HEIGHT n) then s.setCam n { c with ended := true }
  else s.camBad n 4 0

/-- Every write of a good frame is made (R273). -/
def execCameraFrameComplete (n : PortNo) (s : State) : Out := .next <| s.orHeld (isCamera n) (.frameDone n) <|
  if s.camRuns n.val && (s.camSt n.val).ended then s.camDone n.val else s

end Sys2Proof.Machine
end

