-- ==== Sys2Proof/Machine/ModeOps.lean ====
section
/-! DEFINITION. Mode requests, the start of HOLD and DORMANT entry, the way out of REFUGE, resets, and the writes to the SYS
and CFG registers (R74, R76, R200 to R226). -/

namespace Sys2Proof.Machine

/-! ### Resets (R224, R225) -/

/-- Registers that only a power-on reset resets: the Oasis registers and the DBG block (R225, R226); and the supply levels,
which are monitored continuously (R343). -/
def keptByReset (a : Nat) : Bool :=
  a == R.SYS_RESET_CAUSE || a == R.PIN_BANK_STATUS || a == R.SYS_WAKE_CTRL || a == R.SYS_WAKE_TIMER || a == R.SYS_WAKE_SRC
    || decide (0x40170000 ≤ a ∧ a < 0x40180000)

/-- CFG_FUSE shows the fuses as they stand at the reset (R376). -/
def State.showFuses (s : State) : State :=
  (s.put F.CFG_FUSE_KEYV (if s.fuses.keyv then 1 else 0)).put F.CFG_FUSE_AUTHREQ (if s.fuses.authreq then 1 else 0)

/-- A reset by any source but power-on: every block but the Oasis registers, which gain the cause, and the DBG block. The
fuses, the flash, the TAP and what drives the balls from outside are no blocks of the core. LFCLK runs on. -/
def State.deviceReset (s : State) (cause : Fld) : State :=
  let t : State :=
    { pending := s.pending, now := s.now, freeCtr := s.freeCtr, regs := tabKeep keptByReset s.regs, cycT0 := s.now,
      flash := s.flash, fuses := s.fuses, tap := s.tap, dbg := s.dbg, resp := s.resp,
      pins := { ext := s.pins.ext, resetLow := s.pins.resetLow },
      mode := { lf := s.mode.lf, lfPhase := s.mode.lfPhase, thermHold := s.mode.thermHold, pinHold := s.mode.pinHold,
                pfwLow := s.mode.pfwLow } }
  let t := t.on cause
  (t.iff (s.flag F.DBG_CTRL_ATTACH) fun t => t.on F.SYS_RESET_CAUSE_DBG_ATTACHED).showFuses

/-- A power-on reset: every block, and the cause reads POR alone (R225). -/
def State.powerOn (s : State) : State :=
  { pending := s.pending, now := s.now, freeCtr := s.freeCtr, cycT0 := s.now, flash := s.flash, fuses := s.fuses,
    resp := s.resp, pins := { ext := s.pins.ext } : State }.showFuses

/-- A write to SYS_RESET: KEY = 0xA5 and GO = 1 reset the N1024. -/
def State.sysResetWrite (s : State) (v : Word) : State :=
  if bitsOf v 24 8 = 0xA5 ∧ bitOf v 0 then s.deviceReset F.SYS_RESET_CAUSE_SOFT else s

/-! ### HOLD and DORMANT entry, step 1 (R214, R222, R375) -/

/-- What partners see stops: DVALID released, the mute output low, every head stopped, pending flips discarded. A clone stops with
its source (R170). -/
def State.goDark (s : State) : State :=
  let s := { s with aud := { s.aud with unmuted := false } }
  let lost := heads4.filter fun c =>
    s.isClone c && (s.head c).phase != .stopped && (s.head (s.get (F.HEAD_CTRL_CLSRC c))).phase != .stopped
  let s := lost.foldl (fun t c => t.on (F.HEAD_EVT_STATUS_CLONELOST c)) s
  s.forEach 4 fun h s =>
    let run := if s.modeNow = 4 then (s.head h).resumeRun else s.running h
    let s := if (s.head h).phase == .stopped then s else s.stopOne h
    let s := (s.modHead h fun x => { x with dvalid := none, resumeRun := run, old := {} }).off (F.HEAD_CHK_STATUS_DVRUN h)
    s.dropFlips h

/-- Step 1 of R214 towards HOLD (4) or DORMANT (0); a transition under way is abandoned (R203), and while a debugger is
attached the entry is emulated (R375). -/
def State.enterDark (s : State) (target : Nat) (byReq : Bool) : State :=
  let prev := if s.modeNow = 4 then s.mode.prev else if s.modeNow = 1 then s.get F.SYS_MODE_TARGET else s.modeNow
  let emul := if s.flag F.DBG_CTRL_ATTACH then some target else none
  let s := s.goDark
  let s := ((s.on F.SYS_EVT_STATUS_PFW).on F.SYS_MODE_TRANS).put F.SYS_MODE_TARGET target
  { s with mode := { s.mode with entryStep := 1, prev := prev, byRequest := byReq, emul := emul,
                                 pfwSeen := false, wakePending := false, raise := none, exitTo := none, exitHeads := [],
                                 resumeStep := 0 },
           prof := { s.prof with forMode := none } }

/-! ### Leaving REFUGE (R221) -/

/-- The request to leave REFUGE for mode m is accepted: step 1. -/
def State.leaveRefuge (s : State) (m : Nat) : State :=
  let s := (s.on F.SYS_MODE_TRANS).put F.SYS_MODE_TARGET m
  if m = 2 then (let s := s.vselTo true; { s with mode := { s.mode with raise := some 2 } })
  else s.startExit 3

/-! ### Mode requests (R202, R203, R211, R221) -/

/-- The changes of R201 that a request can make. -/
def changeAllowed (m c : Nat) : Bool :=
  match m with
  | 2 => c == 3 || c == 5 || c == 4 || c == 0
  | 3 => c == 2 || c == 5 || c == 4 || c == 0
  | 5 => c == 2 || c == 3 || c == 4 || c == 0
  | _ => false

/-- The RESULT of a request for mode c. -/
def State.modeReqResult (s : State) (c : Nat) : Nat :=
  let m := s.modeNow
  let t := s.get F.SYS_MODE_TARGET
  let trans := s.flag F.SYS_MODE_TRANS
  if c = 1 ∨ c = 6 ∨ c = 7 then 1
  else if trans && c == t then 3
  else if trans && decide (modeRank t < modeRank c) then 6
  else if !trans && !changeAllowed m c then 2
  else if m = 5 ∧ (c = 2 ∨ c = 3) ∧ (s.flag F.SYS_REFUGE_CAUSE_DFLT || s.flag F.SYS_REFUGE_CAUSE_SPARE
      || s.flag F.SYS_REFUGE_CAUSE_LEANFAIL || s.flag F.SYS_STATUS_THERMCRIT) then 5
  else if c = 2 ∧ s.leanActive then 4
  else 0

/-- A write to SYS_MODE_REQ. -/
def State.modeReqWrite (s : State) (v : Word) : State :=
  let c := bitsOf v 0 3
  let r := s.modeReqResult c
  let s := s.put F.SYS_MODE_RESULT_RESULT r
  if r ≠ 0 then s
  else match c with
    | 2 => if s.modeNow = 5 then s.leaveRefuge 2
           else
             let s := ((s.on F.SYS_MODE_TRANS).put F.SYS_MODE_TARGET 2).vselTo true
             { s with mode := { s.mode with raise := some 2 } }
    | 3 => if s.modeNow = 5 ∧ !s.flag F.SYS_MODE_TRANS then (s.on F.SYS_LEAN_CAUSE_REQ).leaveRefuge 3
           else s.leanTrigger F.SYS_LEAN_CAUSE_REQ 0
    | 4 => s.enterDark 4 true
    | 5 => s.refugeTrigger F.SYS_REFUGE_CAUSE_REQ
    | _ => s.enterDark 0 true

/-! ### Other SYS and CFG writes -/

/-- SYS_THERM: ignored when it breaks a limit of R208. -/
def State.thermWriteReg (s : State) (v : Word) : State :=
  let lean := bitsOf v 0 8
  let crit := bitsOf v 8 8
  let hyst := bitsOf v 16 4
  if 85 ≤ lean ∧ lean ≤ 120 ∧ lean + 5 ≤ crit ∧ crit ≤ 125 ∧ 1 ≤ hyst then s.maskWrite R.SYS_THERM v else s

/-- SYS_HOLD_CTRL: a DELAY above 30 keeps the old DELAY. -/
def State.holdCtrlWrite (s : State) (v : Word) : State :=
  s.maskWrite R.SYS_HOLD_CTRL (if bitsOf v 0 6 ≤ 30 then v else setBits v 0 6 (s.get F.SYS_HOLD_CTRL_DELAY))

/-- SYS_VSEL: SETTLE 10 to 1,000. -/
def State.vselWrite (s : State) (v : Word) : State :=
  if 10 ≤ bitsOf v 0 10 ∧ bitsOf v 0 10 ≤ 1000 then s.maskWrite R.SYS_VSEL v else s

/-- A write to CFG_PROFILE (R74, R76). -/
def State.profileWrite (s : State) (v : Word) : State :=
  let p := bitsOf v 0 3
  if s.flag F.CFG_PROFILE_STATUS_BUSY then s.put F.CFG_PROFILE_STATUS_RESULT 2
  else if !s.flag (F.CFG_PROF_INFO_VALID p) then s.put F.CFG_PROFILE_STATUS_RESULT 1
  else
    let s := (s.put F.CFG_PROFILE_PROFILE p).put F.CFG_PROFILE_STATUS_RESULT 0
    if p = s.get F.CFG_PROFILE_STATUS_ACTIVE then s.on F.CFG_PROFILE_STATUS_DONE
    else s.profSwitch p (s.modeNow == 3) none

/-- Writes to the SYS block. -/
def State.sysWrite (s : State) (off : Nat) (v : Word) : State :=
  match off with
  | 0x04 => s.modeReqWrite v
  | 0x24 => s.sysResetWrite v
  | 0x30 => s.holdCtrlWrite v
  | 0x50 => s.thermWriteReg v
  | 0x64 => s.vselWrite v
  | _ => s.maskWrite (0x40000000 + off) v

/-- Writes to the CFG block. -/
def State.cfgWrite (s : State) (off : Nat) (v : Word) : State :=
  match off with
  | 0x14 => s.profileWrite v
  | _ => s.maskWrite (0x40010000 + off) v

end Sys2Proof.Machine
end

