-- ==== Sys2Proof/Machine/Pins.lean ====
section
/-! DEFINITION. The multifunction pins (R342 to R352, R354): banks, routing, drive, pad levels, event lines, and the writes
to the PIN block. -/

namespace Sys2Proof.Machine

/-! ### Banks (R342, R343) -/

def pinBank (p : Nat) : Nat := p / 24
def State.bankCode (s : State) (k : Nat) : Nat := bitsOf (s.rd R.PIN_BANK_STATUS) (2 * k) 2
/-- The bank's supply is in one of the two windows. -/
def State.bankUp (s : State) (k : Nat) : Bool := s.bankCode k == 1 || s.bankCode k == 2

/-! ### Drivers (R344, R345) -/

/-- A function number that drives its pin. -/
def isOutputFn (f : Nat) : Bool := decide (f < 60)
/-- A reserved function number. -/
def isReservedFn (f : Nat) : Bool := decide (60 ≤ f ∧ f < 64 ∨ 104 ≤ f)

/-- The receive FIFO of UART n is full. -/
def State.uartFull (s : State) (n : Nat) : Bool := decide (16 ≤ (s.uartSt n).rx.length)

/-- DBG_FREEZE holds the serial ports beside a halted control core (R374). -/
def State.serFrozen (s : State) : Bool := s.flag F.DBG_FREEZE_SER && s.cc.halted
/-- A serial line may move: where the ports are frozen, only to the end of what was under way. -/
def State.serMoves (s : State) (done : Bool) : Bool := !(s.serFrozen && done)

/-- A character, a frame or a transfer is under way on the line of function f, or an audio port clocks it: its level then changes from
bit to bit. -/
def State.fnMoves (s : State) (f : Nat) : Bool :=
  let uart := fun n => s.flag (F.UART_CTRL_EN n) && !(s.uartSt n).tx.isEmpty && s.serMoves (s.uartSt n).txDone
  let spi := fun n => s.flag (F.SPI_CTRL_EN n) && !(s.spiSt n).tx.isEmpty && s.serMoves (s.spiSt n).txDone
  let port := fun p => s.flag F.AUD_CTRL_EN && s.get (F.AUD_P_CFG_MODE p) != 0 && (p != 2 || s.get (F.AUD_P_CFG_MODE p) == 1)
  match f with
  | 32 => uart 0 | 34 => uart 1
  | 36 | 37 => spi 0 | 42 | 43 => spi 1
  | 38 | 39 | 40 | 41 => spi 0 && s.get (F.SPI_CTRL_CS 0) == f - 38
  | 44 | 45 | 46 | 47 => spi 1 && s.get (F.SPI_CTRL_CS 1) == f - 44
  | 48 | 49 => s.flag (F.I2C_STATUS_BUSY 0) | 50 | 51 => s.flag (F.I2C_STATUS_BUSY 1)
  | 52 | 53 | 54 => port 0 | 55 | 56 | 57 => port 1 | 58 | 59 => port 2
  | _ => false

/-- The level of an output function: timers their OUT bit, RTS low while there is room; between characters and frames UART TX idle
high, SPI its clock's idle level, its last data bit and inactive selects, I2C released; of an audio port that is off every output low
(R289). While the line moves its level is a free value. -/
def State.fnLevel (s : State) (f : Nat) : Bool :=
  if s.fnMoves f then Config.lineLevel s.freeCtr f
  else if f < 32 then s.flag (F.TIM_CCFG_OUT (f / 4) (f % 4))
  else match f with
    | 32 | 34 => true
    | 33 => s.flag (F.UART_CTRL_RTSCTS 0) && s.uartFull 0
    | 35 => s.flag (F.UART_CTRL_RTSCTS 1) && s.uartFull 1
    | 36 => s.flag (F.SPI_CTRL_CPOL 0)
    | 42 => s.flag (F.SPI_CTRL_CPOL 1)
    | 37 => bitOf (s.spiSt 0).last 0
    | 43 => bitOf (s.spiSt 1).last 0
    | _ => decide (f < 52)

/-- Function f uses pin p. -/
def State.fnOn (s : State) (f p : Nat) : Bool := s.flag (F.PIN_SEL_EN f) && s.get (F.PIN_SEL_PIN f) == p

/-- The levels of the drivers of pin p: its functions and its GPIO output. -/
def State.drivers (s : State) (p : Nat) : List Bool :=
  ((List.range 60).filter fun f => s.fnOn f p).map s.fnLevel ++
    (if bitOf (s.rd (R.PIN_P_OE (p / 24))) (p % 24) then [bitOf (s.rd (R.PIN_P_OUT (p / 24))) (p % 24)] else [])

/-- What the output stage of pin p does: a level, or off (R345). -/
def State.driveOf (s : State) (p : Nat) : Option Bool :=
  if !s.bankUp (pinBank p) || s.flag (F.PIN_CFG_ANA p) then none
  else match s.drivers p with
    | [] => none
    | l => let v := l.any id
           if v && s.flag (F.PIN_CFG_OD p) then none else some v

/-- The level of a pin that the N1024 does not drive: the outside's, else the pull's, else floating. -/
def State.looseLevel (s : State) (p : Nat) : Bool :=
  match tabGet (dflt none) s.pins.ext p with
  | some b => b
  | none =>
    match (if s.flag (F.PIN_CFG_ANA p) then 0 else s.get (F.PIN_CFG_PULL p)) with
    | 1 => false
    | 2 => true
    | _ => Config.floatLevel (s.freeCtr + p)

/-- What the output stage of pin p does, now or as the latch of a bank with supply holds it (R351, R352). -/
def State.stage (s : State) (p : Nat) : Option Bool :=
  match s.pins.latch with
  | some l => if s.bankUp (pinBank p) then l.getD p none else none
  | none => s.driveOf p

/-- Under EXTEST the boundary cells drive the balls while RESET_N is held low (R357). -/
def State.cellsDrive (s : State) : Bool := decide (s.tap.ir = 0) && s.pins.resetLow

/-- The level at the ball of pin p: the output stage's, else what the outside and the pull make of it. -/
def State.padLevel (s : State) (p : Nat) : Bool :=
  if s.cellsDrive then s.tap.cells.getD p (s.looseLevel p)
  else match s.stage p with
    | some v => v
    | none => s.looseLevel p

/-- The pin's input is on: its bank has supply, and it is neither latched nor in analogue mode (R343, R348, R351). -/
def State.pinSees (s : State) (p : Nat) : Bool := s.pins.latch.isNone && s.bankUp (pinBank p) && !s.flag (F.PIN_CFG_ANA p)

/-- The synchronised level that inputs see: 0 with the input off. -/
def State.inLevel (s : State) (p : Nat) : Bool := s.pinSees p && s.padLevel p

/-- The function is attached to a pin that can see edges. -/
def State.fnSees (s : State) (f : Nat) : Bool := s.flag (F.PIN_SEL_EN f) && s.pinSees (s.get (F.PIN_SEL_PIN f))

/-- An input function's level: idle while detached (R344). -/
def State.fnIn (s : State) (f : Nat) (idle : Bool) : Bool :=
  if s.flag (F.PIN_SEL_EN f) then s.inLevel (s.get (F.PIN_SEL_PIN f)) else idle

/-- PIN_Pk_IN. -/
def State.pinIn (s : State) (k : Nat) : Word := w32 (maskOf 24 fun n => s.inLevel (24 * k + n))

/-- The outside drives a ball to a level. What it does to a ball that the N1024 drives shows nowhere. -/
def State.setExt (s : State) (p : Nat) (b : Bool) : State :=
  if (s.stage p).isSome then s
  else { s with pins := { s.pins with ext := tabSet (dflt none) s.pins.ext p (some b) } }

/-! ### Event lines (R350) -/

def State.linePin (s : State) (n : Nat) : Nat := 8 * s.get (F.PIN_EVT_SEL n) + n
/-- Lines whose EDGE = 3 pin is high: their status bits cannot stay cleared. -/
def State.lineHigh (s : State) (n : Nat) : Bool :=
  s.flag (F.PIN_EVT_EN n) && s.get (F.PIN_EVT_EDGE n) == 3 && s.inLevel (s.linePin n)
/-- Line n watches a pin whose input is on. -/
def State.lineOn (s : State) (n : Nat) : Bool := s.flag (F.PIN_EVT_EN n) && s.pinSees (s.linePin n)

/-- Line n as its synchronised level now stands: the bit sets at the selected edge, and with EDGE = 3 while the level is high; the
first sample after the line is attached, and of a pin whose input comes on, starts the edge detector (R347, R350). -/
def State.lineSync (s : State) (n : Nat) : State :=
  if !s.lineOn n then { s with pins := { s.pins with evtInit := natSetBit s.pins.evtInit n false } }
  else
    let l := s.inLevel (s.linePin n)
    let known := natBit s.pins.evtInit n
    let was := natBit s.pins.evtSeen n
    let hit := match s.get (F.PIN_EVT_EDGE n) with
      | 0 => known && l && !was
      | 1 => known && !l && was
      | 2 => known && l != was
      | _ => l
    { s with pins := { s.pins with evtSeen := natSetBit s.pins.evtSeen n l, evtInit := natSetBit s.pins.evtInit n true } }.iff hit
      fun s => s.onBit F.PIN_EVT_STATUS_BITS n

/-- Every event line as the pins now stand: after each command that moves a pin, and in every PCLK. -/
def State.pinSync (s : State) : State := s.forEach 8 fun n s => s.lineSync n

/-- PIN_EVT_STATUS. -/
def State.pinEvents (s : State) : Word := s.rd R.PIN_EVT_STATUS ||| w32 (maskOf 8 s.lineHigh)

/-! ### Writes (R344, R346, R348, R349, R350) -/

def State.pinOut (s : State) (k : Nat) (f : Word → Word) : State :=
  s.wr (R.PIN_P_OUT k) (f (s.rd (R.PIN_P_OUT k)) &&& 0xFFFFFF)

/-- A write to PIN_SEL_f. -/
def State.pinSelReg (s : State) (f : Nat) (v : Word) : State :=
  if isReservedFn f || decide (95 < bitsOf v 0 7) then s else s.maskWrite (R.PIN_SEL f) v

/-- A write to a register of the PIN block. -/
def State.pinReg (s : State) (off : Nat) (v : Word) : State :=
  let a := 0x40150000 + off
  if off < 0x80 ∧ off % 0x20 = 0x8 then s.pinOut (off / 0x20) fun w => w ||| v
  else if off < 0x80 ∧ off % 0x20 = 0xC then s.pinOut (off / 0x20) fun w => w &&& ~~~v
  else if off < 0x80 ∧ off % 0x20 = 0x10 then s.pinOut (off / 0x20) fun w => w ^^^ v
  else if 0x110 ≤ off ∧ off < 0x130 then
    let n := (off - 0x110) / 4
    let t := s.maskWrite a (if bitsOf v 0 4 ≤ 11 then v else setBits v 0 4 (s.get (F.PIN_EVT_SEL n)))
    if t.linePin n = s.linePin n ∧ s.flag (F.PIN_EVT_EN n) then t
    else { t with pins := { t.pins with evtInit := natSetBit t.pins.evtInit n false } }
  else if 0x400 ≤ off ∧ off < 0x600 then s.pinSelReg ((off - 0x400) / 4) v
  else s.maskWrite a v

/-- A write to the PIN block, and what the event lines see of it. -/
def State.pinWrite (s : State) (off : Nat) (v : Word) : State := (s.pinReg off v).pinSync

/-! ### The boundary register (R357) -/

/-- Cells: the 96 multifunction pins, then RESET_N, PFW_N, VSEL, PCIE_EN, AUD_MUTE_N, WAKE0 to 3, DVALID_0 to 3, the four Pragus
balls, the six QSPI balls, and the 26 of RGMII and MDIO, in the order of R353. The order is the model's (log 125). -/
def cellCount : Nat := 145
def cellRESET_N : Nat := 96
def cellVSEL : Nat := 98

/-- The level at the ball of a boundary cell. What comes from outside, and what a link sends, is a free value. Under EXTEST the cells
drive every ball but VSEL's, which only observes, and RESET_N's, which the outside holds low. -/
def State.ballLevel (s : State) (n : Nat) : Bool :=
  let loose := Config.floatLevel (s.freeCtr + n)
  if n < 96 then s.padLevel n
  else if n = cellRESET_N then !s.pins.resetLow
  else if n = cellVSEL then s.mode.vsel
  else if s.cellsDrive then s.tap.cells.getD n loose
  else match n with
    | 97 => !s.mode.pfwLow
    | 100 => s.aud.unmuted
    | 105 | 106 | 107 | 108 => (s.head (n - 105)).dvalid.getD loose
    | _ => loose

/-- The cells capture the levels at their balls. -/
def State.captureCells (s : State) : State :=
  { s with tap := { s.tap with captured := (List.range cellCount).map s.ballLevel } }

/-! ### The rows -/

/-- An edge at the ball of event line n's pin (R350), after which it stands at `level`. A ball that the N1024 drives keeps its own
level. -/
def execPinEvent (n : BitVec 3) (level : Bool) (s : State) : Out := .next <|
  let n := n.toNat
  let p := s.linePin n
  if (s.stage p).isSome || s.cellsDrive then s.pinSync
  else
    let s := { s with pins := { s.pins with evtSeen := natSetBit s.pins.evtSeen n !level,
                                            evtInit := natSetBit s.pins.evtInit n true } }
    (s.setExt p level).pinSync

/-- The latch holds nothing for a bank whose rail is off, also when the rail returns (R352). -/
def State.dropLatch (s : State) (k : Nat) : State :=
  { s with pins := { s.pins with latch := s.pins.latch.map fun l => l.zipIdx.map fun e => if pinBank e.2 = k then none else e.1 } }

/-- A bank's supply has stayed 10 µs in a new window (R343). A bank D outside both windows holds the N1024 in reset as
RESET_N would (R381). -/
def execBankSupplyChange (k code : BitVec 2) (s : State) : Out := .next <|
  let set := fun (s : State) =>
    let t := s.wr R.PIN_BANK_STATUS (setBits (s.rd R.PIN_BANK_STATUS) (2 * k.toNat) 2 code.toNat)
    (if code = 1 ∨ code = 2 then t else t.dropLatch k.toNat).pinSync
  if k = 3 then
    if code = 0 ∨ code = 3 then
      let t := set (s.deviceReset F.SYS_RESET_CAUSE_PIN)
      { t with mode := { t.mode with pinHold := true } }
    else
      let t := set s
      { t with mode := { t.mode with pinHold := false } }
  else set s

end Sys2Proof.Machine
end

