-- ==== Sys2Proof/Machine/Pragus.lean ====
section
/-! DEFINITION. The Pragus link (R321 to R326, R341): the frame the hardware sends, what a received frame does, and
supervision loss. -/

namespace Sys2Proof.Machine

/-- The links run: FULL, LEAN or REFUGE, with no entry into HOLD or DORMANT begun (R223, R214). -/
def State.linkMode (s : State) : Bool :=
  s.mode.entryStep == 0 && (s.modeNow == 2 || s.modeNow == 3 || s.modeNow == 5)

/-! ### Sending (R322 to R324) -/

/-- HEADS: two bits per head. -/
def State.prgHead (s : State) (h : Nat) : Nat :=
  if !s.running h then 0
  else if s.inRefugeView h then 3
  else if s.flag (F.HEAD_CHK_STATUS_DVRUN h) then 1 else 2

/-- WINDOWS of head h: bit n (R324). -/
def State.prgWindows (s : State) (h : Nat) : Nat :=
  maskOf 16 fun n => (bitOf ((s.head h).win n).ctrl 22 && bitOf (s.rd (R.HEAD_CHK_WFAIL h)) n) || natBit (s.head h).failSince n

/-- FLAGS. -/
def State.prgFlags (s : State) (lane : Nat) (first : Bool) : Nat :=
  lane * 128 + (if first then 64 else 0) + (if s.flag F.CFG_STATUS_DFLT then 32 else 0)
    + (if s.flag F.DBG_CTRL_ATTACH then 16 else 0) + (if s.flag F.PRG_STATUS_LOSTST then 8 else 0) + s.modeNow

/-- Bytes 0 to 27 of the frame with number `seq` on a lane (R323). -/
def State.prgBody (s : State) (lane seq : Nat) (first : Bool) : List Byte :=
  [0xD2, 0x4B] ++ leBytes 2 seq ++ leBytes 1 (s.prgFlags lane first)
    ++ leBytes 1 (s.prgHead 0 + 4 * s.prgHead 1 + 16 * s.prgHead 2 + 64 * s.prgHead 3)
    ++ heads4.flatMap (fun h => leBytes 2 (s.prgWindows h)) ++ heads4.flatMap (fun h => leBytes 1 (s.head h).aborts)
    ++ leBytes 1 (s.rd R.SYS_LEAN_CAUSE).toNat ++ leBytes 1 (s.rd R.SYS_REFUGE_CAUSE).toNat
    ++ leBytes 2 (s.get (F.PRG_CH_RXSEQ_SEQ lane)) ++ leBytes 2 s.store.ueCount ++ leBytes 4 (s.rd R.PRG_APP).toNat

/-- The whole frame. -/
def State.prgFrame (s : State) (lane seq : Nat) (first : Bool) : List Byte :=
  let b := s.prgBody lane seq first
  b ++ leBytes 4 (crc32c b).toNat

/-- The next frame's number: 0 for the first after boot or resume. -/
def State.prgSeq (s : State) : Nat := if s.prg.first then 0 else (s.get F.PRG_TXSEQ_SEQ + 1) % 65536

/-! ### Receiving (R325) and supervision (R326) -/

/-- SYNC and CRC are right, over all 32 bytes. -/
def prgValid (b : List Byte) : Bool :=
  decide (32 ≤ b.length) && b.take 2 == [0xD2, 0x4B] && leNat ((b.drop 28).take 4) == (crc32c (b.take 28)).toNat

/-- Copy a valid frame into the RX registers. -/
def State.prgCopy (s : State) (c : Nat) (b : List Byte) : State :=
  let s := s.forEach 8 fun i s => s.wr (R.PRG_CH_RX c i) (w32 (leNat ((b.drop (4 * i)).take 4)))
  (s.put (F.PRG_CH_RXSEQ_SEQ c) (leNat ((b.drop 2).take 2))).on F.PRG_STATUS_RXVALID

/-- An advancing frame: the timer restarts, and a loss ends. -/
def State.prgAdvance (s : State) : State :=
  let s := s.supRestart
  s.iff (s.flag F.PRG_STATUS_LOSTST) fun s => (s.off F.PRG_STATUS_LOSTST).on F.PRG_STATUS_REGAIN

def State.prgReceive (s : State) (c : Nat) (b : List Byte) : State :=
  if prgValid b then
    let adv := leNat ((b.drop 2).take 2) == (s.get (F.PRG_CH_RXSEQ_SEQ c) + 1) % 65536 || (b.getD 4 0).getLsbD 6
    let s := s.prgCopy c b
    if adv then s.prgAdvance else s.on F.PRG_STATUS_STALL
  else (s.on F.PRG_STATUS_CRCERR).satUp (F.PRG_CH_ERRCNT_CNT c)

/-! ### Writes (R341) -/

def State.prgWrite (s : State) (off : Nat) (v : Word) : State :=
  match off with
  | 0x0 =>
    let was := s.flag F.PRG_CTRL_RXEN
    let s := s.maskWrite R.PRG_CTRL v
    if was == bitOf v 30 then s else s.supRestart
  | 0x10 => if bitsOf v 0 8 = 0 then s else s.maskWrite R.PRG_TIMEOUT v
  | _ => s.maskWrite (0x40140000 + off) v

/-! ### The rows -/

/-- Both lanes start a frame (R322); windows that failed since the previous frame have been told (R324). -/
def execPragusFrameSend (s : State) : Out := .next <|
  if s.linkMode && s.flag F.PRG_CTRL_TXEN then
    let f := s.prg.first
    let q := s.prgSeq
    let s := { s with prg := { s.prg with first := false, sent0 := s.prgFrame 0 q f, sent1 := s.prgFrame 1 q f } }
    (s.put F.PRG_TXSEQ_SEQ q).forEach 4 fun h s => s.modHead h fun x => { x with failSince := 0 }
  else s

/-- A partner frame has been received on lane n (R325). -/
def execPragusFrameReceive (n : PortNo) (bytes : List Byte) (s : State) : Out := .next <|
  s.iff (s.linkMode && s.flag F.PRG_CTRL_RXEN) fun s => s.prgReceive n bytes

/-- The supervision timer reaches PRG_TIMEOUT (R326). An advancing frame that has come in this clock wins: the timer has just
restarted (R11). -/
def execSupervisionLost (s : State) : Out := .next <|
  if s.linkMode && s.prg.supRun && s.prg.supAt != s.now then
    let s := (s.on F.PRG_STATUS_LOST).on F.PRG_STATUS_LOSTST
    let s := { s with prg := { s.prg with supRun := false } }
    if s.flag F.PRG_CTRL_LOSTEN then
      s.forEach 4 fun h s => s.iff (natBit (s.get F.PRG_LOSTSEL_HEADS) h) fun s =>
        s.on (F.HEAD_L_MODE_EN h (s.get F.PRG_LOSTSEL_LAYER))
    else s
  else s

end Sys2Proof.Machine
end

