-- ==== Sys2Proof/Machine/Eth.lean ====
section
/-! DEFINITION. The two Ethernet MACs and the PTP clock (R332 to R336, R339). A frame is its bytes from the destination
address to the end of the payload; the FCS is told apart as valid or not. -/

namespace Sys2Proof.Machine

/-! ### The PTP clock (R336) -/

/-- Nanoseconds of the clock as one number, modulo its 48 bits of seconds. -/
def PtpSt.total (p : PtpSt) : Int := (p.sec : Int) * 1000000000 + p.ns
def PtpSt.setTotal (p : PtpSt) (t : Int) : PtpSt :=
  { p with sec := (t / 1000000000 % 281474976710656).toNat, ns := (t % 1000000000).toNat }

/-- One PCLK: INC holds nanoseconds with a 24-bit fraction. -/
def PtpSt.tick (p : PtpSt) (inc : Word) : PtpSt :=
  let f := p.frac + inc.toNat
  { p.setTotal (p.total + f / 16777216) with frac := f % 16777216 }

/-- Seconds, low and high words, as the holding copies show them. -/
def State.ptpSecLo (s : State) : Word := w32 s.ptp.holdSec
def State.ptpSecHi (s : State) : Word := w32 (s.ptp.holdSec / 2 ^ 32)

/-- A read of PTP_NS latches the seconds. -/
def State.ptpLatch (s : State) : State := { s with ptp := { s.ptp with holdSec := s.ptp.sec } }

/-- A write of PTP_NS sets the clock to SEC_HI, SEC_LO and NS as written. -/
def State.ptpNsSet (s : State) (v : Word) : State :=
  let sec := s.get F.ETH_0_PTP_SEC_HI_SEC * 2 ^ 32 + (s.rd R.ETH_0_PTP_SEC_LO).toNat
  { s with ptp := { s.ptp with sec := sec, ns := bitsOf v 0 30, frac := 0 } }

/-- A write of PTP_ADJ. -/
def State.ptpAdjust (s : State) (v : Word) : State := { s with ptp := s.ptp.setTotal (s.ptp.total + v.toInt) }

/-! ### Writes (R339) -/

/-- ETH_n_CTRL: SPEED and the delay bits only while TXEN = RXEN = 0; writing TXEN or RXEN starts, or starts again, its
direction at the current head (R334, R335). -/
def State.ethCtrlWrite (s : State) (n : Nat) (v : Word) : State :=
  let busy := s.flag (F.ETH_CTRL_TXEN n) || s.flag (F.ETH_CTRL_RXEN n)
  let keep : Word := if busy then 0x03300000 else 0
  let s := s.maskWrite (R.ETH_CTRL n) ((v &&& ~~~keep) ||| (s.rd (R.ETH_CTRL n) &&& keep))
  let s := (s.put (F.ETH_STATUS_TXRUN n) (bitsOf v 31 1)).put (F.ETH_STATUS_RXRUN n) (bitsOf v 30 1)
  let s := s.setEth n { s.ethSt n with poll := bitOf v 31 }
  (s.iff (!bitOf v 31) fun s => s.dropHeld (isMacTx n)).iff (!bitOf v 30) fun s => s.dropHeld (isMacRx n)

/-- A write of GO to the MDIO register starts a transaction; while one runs the write is ignored (R332). -/
def State.mdioWrite (s : State) (n : Nat) (v : Word) : State :=
  if s.flag (F.ETH_MDIO_BUSY n) then s
  else (s.maskWrite (R.ETH_MDIO n) v).iff (bitOf v 31) fun s => s.on (F.ETH_MDIO_BUSY n)

/-- A ring length of 1 to 256; another value is ignored. -/
def State.ethLenWrite (s : State) (a : Nat) (v : Word) : State :=
  if 1 ≤ bitsOf v 0 9 ∧ bitsOf v 0 9 ≤ 256 then s.maskWrite a v else s

/-- A write to ETH_n. -/
def State.ethWrite (s : State) (n off : Nat) (v : Word) : State :=
  let a := R.ETH_CTRL n + off
  match off with
  | 0x0 => s.ethCtrlWrite n v
  | 0xC => if bitOf v 0 then s.setEth n { s.ethSt n with poll := s.flag (F.ETH_STATUS_TXRUN n) } else s
  | 0x44 => s.ethLenWrite a v
  | 0x54 => s.ethLenWrite a v
  | 0x60 => s.mdioWrite n v
  | 0x104 => if n = 0 then s.ptpNsSet v else s
  | 0x110 => if n = 0 then s.ptpAdjust v else s
  | _ => s.maskWrite a v

/-! ### Descriptors (R333) -/

/-- The four words of a descriptor. -/
def descWords (b : List Byte) : Word × Word × Word × Word :=
  let w := fun i => w32 (leNat ((b.drop (4 * i)).take 4))
  (w 0, w 1, w 2, w 3)

/-- Write back words 1 to 3 of the descriptor at `a`. -/
def State.descBack (s : State) (a : Nat) (w1 w2 w3 : Word) : Bool × State :=
  s.blockWrite 0x15 (a + 4) (leBytes 4 w1.toNat ++ leBytes 4 w2.toNat ++ leBytes 4 w3.toNat)

/-- A refused access stops a direction. -/
def State.ethStop (s : State) (n : Nat) (run : Fld) : State := (s.off run).on (F.ETH_STATUS_ERR n)

/-- The ring index after `i`. -/
def nextIndex (i len : Nat) : Nat := if i + 1 < len then i + 1 else 0

/-- Nanoseconds and seconds of a timestamp. -/
def State.stampNs (s : State) : Word := w32 s.ptp.ns
def State.stampSec (s : State) : Word := w32 s.ptp.sec

/-! ### Transmission (R334) -/

/-- A transmit descriptor is done: written back, the head moved on, TXDONE if it asked for it. -/
def State.txDone (s : State) (n a : Nat) (w1 w2 w3 : Word) : State :=
  match s.descBack a (w1 &&& ~~~(0x80000000 : Word)) w2 w3 with
  | (false, s) => s.ethStop n (F.ETH_STATUS_TXRUN n)
  | (true, s) =>
    let s := s.put (F.ETH_TXHEAD_HEAD n) (nextIndex (s.get (F.ETH_TXHEAD_HEAD n)) (s.get (F.ETH_TXLEN_LEN n)))
    s.iff (bitOf w1 30) fun s => s.on (F.ETH_STATUS_TXDONE n)

/-- The frame of an owned descriptor whose LEN is allowed. -/
def State.txFrame (s : State) (n a : Nat) (bad : Bool) (w0 w1 : Word) : State :=
  let len := bitsOf w1 0 16
  match s.blockRead 0x15 5 (w0.toNat / 4 * 4) len with
  | (none, s) => s.ethStop n (F.ETH_STATUS_TXRUN n)
  | (some (b, e), s) =>
    let bad := bad || e == .uncorr
    let s := s.setEth n { s.ethSt n with sent := b ++ List.replicate (60 - len) 0, sentOk := !bad }
    s.txDone n a ((w1 &&& 0xC000FFFF) ||| 0x20000000 ||| (if bad then 0x10000000 else 0)) s.stampNs s.stampSec

/-- The MAC reads its head transmit descriptor and deals with it. -/
def State.txHead (s : State) (n : Nat) : State :=
  let a := (s.rd (R.ETH_TXBASE n)).toNat / 16 * 16 + 16 * s.get (F.ETH_TXHEAD_HEAD n)
  match s.blockRead 0x15 5 a 16 with
  | (none, s) => s.ethStop n (F.ETH_STATUS_TXRUN n)
  | (some (b, e), s) =>
    let (w0, w1, w2, w3) := descWords b
    if !bitOf w1 31 then (s.on (F.ETH_STATUS_TXIDLE n)).setEth n { s.ethSt n with poll := false }
    else if 14 ≤ bitsOf w1 0 16 ∧ bitsOf w1 0 16 ≤ 1518 then s.txFrame n a (e == .uncorr) w0 w1
    else s.txDone n a ((w1 &&& 0xC000FFFF) ||| 0x08000000) w2 w3

/-! ### Reception (R334, R335) -/

/-- A big-endian half-word of the frame. -/
def be16 (b : List Byte) (i : Nat) : Nat := (b.getD i 0).toNat * 256 + (b.getD (i + 1) 0).toNat

def frameTagged (b : List Byte) : Bool := be16 b 12 == 0x8100
def frameType (b : List Byte) : Nat := if frameTagged b then be16 b 16 else be16 b 12
def frameBcast (b : List Byte) : Bool := b.take 6 == List.replicate 6 0xFF
def frameMcast (b : List Byte) : Bool := (b.getD 0 0).getLsbD 0 && !frameBcast b

/-- The destination test. -/
def State.destOk (s : State) (n : Nat) (b : List Byte) : Bool :=
  let mac := leBytes 4 (s.rd (R.ETH_MAC_LO n)).toNat ++ leBytes 2 (s.rd (R.ETH_MAC_HI n)).toNat
  let c := (crc32 (b.take 6)).toNat / 2 ^ 26
  s.flag (F.ETH_CTRL_PROMISC n) || b.take 6 == mac || (frameBcast b && s.flag (F.ETH_CTRL_BCAST n))
    || (frameMcast b && bitOf (s.rd (if c < 32 then R.ETH_HASH_LO n else R.ETH_HASH_HI n)) (c % 32))

/-- The VLAN test. -/
def State.vlanOk (s : State) (n : Nat) (b : List Byte) : Bool :=
  !s.flag (F.ETH_CTRL_VLANEN n) || (!frameTagged b && s.flag (F.ETH_CTRL_UNTAG n))
    || (frameTagged b && heads4.any fun k => s.flag (F.ETH_VID_EN n k) && s.get (F.ETH_VID_VID n k) == be16 b 14 % 4096)

/-- The EtherType test. -/
def State.etypeOk (s : State) (n : Nat) (b : List Byte) : Bool :=
  !s.flag (F.ETH_CTRL_ETYPEEN n)
    || heads4.any fun k => s.flag (F.ETH_ETYPE_EN n k) && s.get (F.ETH_ETYPE_TYPE n k) == frameType b

/-- A pause frame of IEEE 802.3: MAC control, opcode 1, to the reserved address or the MAC's own. -/
def State.isPause (s : State) (n : Nat) (b : List Byte) : Bool :=
  be16 b 12 == 0x8808 && be16 b 14 == 1 && (b.take 6 == [0x01, 0x80, 0xC2, 0x00, 0x00, 0x01]
    || b.take 6 == leBytes 4 (s.rd (R.ETH_MAC_LO n)).toNat ++ leBytes 2 (s.rd (R.ETH_MAC_HI n)).toNat)

/-- Transmission stops for the frame's count of 512 bit times; 512 ns are 6,144 / 5 VCO periods. -/
def State.pauseFor (s : State) (n quanta : Nat) : State :=
  let slow := match s.get (F.ETH_CTRL_SPEED n) with | 0 => 100 | 1 => 10 | _ => 1
  s.setEth n { s.ethSt n with pause := s.now + quanta * 6144 * slow / 5 }

/-- An accepted frame goes to the head receive descriptor, or is dropped. -/
def State.rxStore (s : State) (n : Nat) (b : List Byte) : State :=
  let a := (s.rd (R.ETH_RXBASE n)).toNat / 16 * 16 + 16 * s.get (F.ETH_RXHEAD_HEAD n)
  match s.blockRead 0x15 5 a 16 with
  | (none, s) => s.ethStop n (F.ETH_STATUS_RXRUN n)
  | (some (d, _), s) =>
    let (w0, w1, _, _) := descWords d
    let size := bitsOf w1 0 16
    if !bitOf w1 31 then (s.on (F.ETH_STATUS_RXNOBUF n)).satUp (F.ETH_CNT_DROP_NOBUF n)
    else
      match s.blockWrite 0x15 (w0.toNat / 4 * 4) (b.take size) with
      | (false, s) => s.ethStop n (F.ETH_STATUS_RXRUN n)
      | (true, s) =>
        let w := (w1 &&& 0x40000000) ||| w32 (2 ^ 29 + (if size < b.length then 2 ^ 28 else 0)
          + (if frameTagged b then 2 ^ 27 else 0) + (if frameMcast b then 2 ^ 26 else 0)
          + (if frameBcast b then 2 ^ 25 else 0) + b.length)
        match s.descBack a w s.stampNs s.stampSec with
        | (false, s) => s.ethStop n (F.ETH_STATUS_RXRUN n)
        | (true, s) =>
          let s := s.put (F.ETH_RXHEAD_HEAD n) (nextIndex (s.get (F.ETH_RXHEAD_HEAD n)) (s.get (F.ETH_RXLEN_LEN n)))
          s.iff (bitOf w1 30) fun s => s.on (F.ETH_STATUS_RXDONE n)

/-- A frame has arrived: length and FCS, pause, filters, then the ring. -/
def State.rxFrame (s : State) (n : Nat) (fcsOk : Bool) (b : List Byte) : State :=
  let short := decide (b.length + 4 < 64 ∨ 1522 < b.length + 4)
  let s := s.iff short fun s => s.satUp (F.ETH_CNT_ERR_LENGTH n)
  let s := s.iff (!fcsOk) fun s => s.satUp (F.ETH_CNT_ERR_FCS n)
  if short || !fcsOk then s
  else if s.isPause n b then s.pauseFor n (be16 b 16)
  else if s.destOk n b && s.vlanOk n b && s.etypeOk n b then s.rxStore n b
  else s.satUp (F.ETH_CNT_DROP_FILT n)

/-! ### The rows -/

/-- The MAC sends the frame of its head transmit descriptor (R334). -/
def execEthTransmitFrame (n : PortNo) (s : State) : Out := .next <| s.orHeld (isMacTx n) (.macTx n) <|
  s.iff (s.linkOn && !(s.flag F.DBG_FREEZE_ETH && s.cc.halted) && s.flag (F.ETH_STATUS_TXRUN n) && (s.ethSt n).poll &&
    decide ((s.ethSt n).pause ≤ s.now)) fun s => s.txHead n

/-- A frame arrives (R335). -/
def execEthReceiveFrame (n : PortNo) (fcsOk : Bool) (bytes : List Byte) (s : State) : Out := .next <|
  s.orHeld (isMacRx n) (.macRx n fcsOk bytes) <|
  s.iff (s.linkOn && s.flag (F.ETH_STATUS_RXRUN n)) fun s => s.rxFrame n fcsOk bytes

/-- The management transaction ends (R332); a read's data lands in DATA. -/
def execMdioDone (n : PortNo) (rd : BitVec 16) (s : State) : Out := .next <|
  if s.flag (F.ETH_MDIO_BUSY n) then
    (s.off (F.ETH_MDIO_BUSY n)).iff (s.flag (F.ETH_MDIO_READ n)) fun s => s.put (F.ETH_MDIO_DATA n) rd.toNat
  else s

end Sys2Proof.Machine
end

