-- ==== Sys2Proof/Machine/Timers.lean ====
section
/-! DEFINITION. Timers (R305 to R311, R318), the converter (R315 to R317, R320), the events that tie them and the DMA
channels (R265, R310), and the watchdog (R312 to R314, R319). -/

namespace Sys2Proof.Machine

/-! ### Converter starts (R316) -/

def State.adcSlotCh (s : State) (i : Nat) : Nat := bitsOf (s.rd R.ADC_SEQ) (4 * i) 4

/-- A start of the sequence, by software or by an event. While DBG_FREEZE stops the converter it is ignored (R374). -/
def State.adcStart (s : State) : State :=
  if s.flag F.DBG_FREEZE_ADC && s.cc.halted then s
  else if s.flag F.ADC_STATUS_BUSY then s.on F.ADC_STATUS_TRIGOVR
  else if !s.flag F.ADC_STATUS_READY then s
  else if (List.range (s.get F.ADC_CTRL_LEN)).any fun i => decide (12 ≤ s.adcSlotCh i) then s.on F.ADC_STATUS_SEQERR
  else { s.on F.ADC_STATUS_BUSY with adcSlot := 0 }

/-- A write to ADC_CTRL: EN, and TRIG, LEN and SMP each only with a value its field takes. -/
def State.adcCtrlWrite (s : State) (v : Word) : State :=
  let old := s.rd R.ADC_CTRL
  let v := if 40 ≤ bitsOf v 16 6 ∧ bitsOf v 16 6 ≤ 62 then setBits v 16 6 (bitsOf old 16 6) else v
  let v := if 1 ≤ bitsOf v 8 4 ∧ bitsOf v 8 4 ≤ 8 then v else setBits v 8 4 (bitsOf old 8 4)
  let v := if 12 ≤ bitsOf v 0 8 then v else setBits v 0 8 (bitsOf old 0 8)
  let s := s.maskWrite R.ADC_CTRL v
  if bitOf v 31 then s else { (s.off F.ADC_STATUS_READY).off F.ADC_STATUS_BUSY with adcSlot := 0 }

/-- A write to the ADC block. -/
def State.adcWrite (s : State) (off : Nat) (v : Word) : State :=
  if off = 0 then s.adcCtrlWrite v
  else if off = 0xC then s.iff (bitOf v 0) fun s => s.adcStart
  else s.maskWrite (0x400C0000 + off) v

/-! ### Timer events (R265, R310) -/

/-- The events of one PCLK act: on the DMA channels, the converter, and the timers' starts and stops (a stop wins). -/
def State.timerEvents (s : State) (evs : List Nat) : State :=
  let s := evs.foldl (fun t e => t.dmaEvent e) s
  let s := s.iff (evs.contains (s.get F.ADC_CTRL_TRIG)) fun s => s.adcStart
  s.forEach 8 fun u s =>
    if evs.contains (s.get (F.TIM_CTRL_STOPEV u)) then s.off (F.TIM_CTRL_EN u)
    else if evs.contains (s.get (F.TIM_CTRL_STARTEV u)) then s.on (F.TIM_CTRL_EN u)
    else s

/-! ### The tick (R305 to R307) -/

/-- Timer t counts: enabled, PCLK running, not frozen with the control core. -/
def State.timRuns (s : State) (t : Nat) : Bool :=
  s.flag (F.TIM_CTRL_EN t) && s.pclkOn && !(s.flag (F.TIM_CTRL_FRZ t) && s.cc.halted)

/-- The next tick overflows: CNT stands at TOP, or at the end of its range. -/
def State.timOvf (s : State) (t : Nat) : Bool := s.rd (R.TIM_CNT t) == s.rd (R.TIM_TOP t) || s.rd (R.TIM_CNT t) == 0xFFFFFFFF

/-- CNT after the next tick. -/
def State.timNext (s : State) (t : Nat) : Word := if s.timOvf t then 0 else s.rd (R.TIM_CNT t) + 1

/-- Channel c matches at the next tick. -/
def State.timMatches (s : State) (t c : Nat) : Bool :=
  s.get (F.TIM_CCFG_MODE t c) == 1 && s.timNext t == s.rd (R.TIM_CMP t c)

/-- What a match or an overflow makes of an output level. -/
def outAct (act : Nat) (old : Bool) : Bool := match act with | 1 => true | 2 => false | 3 => !old | _ => old

/-- A compare channel's output after the tick; OVFACT wins where both act. -/
def State.timOut (s : State) (t c : Nat) : State :=
  if s.get (F.TIM_CCFG_MODE t c) ≠ 1 then s
  else
    let old := s.flag (F.TIM_CCFG_OUT t c)
    let oa := s.get (F.TIM_CCFG_OVFACT t c)
    let new := if s.timOvf t && (oa == 1 || oa == 2) then outAct oa old
      else if s.timMatches t c then outAct (s.get (F.TIM_CCFG_MATCHACT t c)) old else old
    s.put (F.TIM_CCFG_OUT t c) (if new then 1 else 0)

/-- One tick of timer t. -/
def State.timTick (s : State) (t : Nat) : State :=
  let ovf := s.timOvf t
  let chans := (List.range 4).filter fun c => s.timMatches t c
  let next := s.timNext t
  let s := s.forEach 4 fun c s => s.timOut t c
  let s := s.wr (R.TIM_CNT t) next
  let s := s.iff ovf fun s => (s.on (F.TIM_STATUS_OVF t)).iff (s.flag (F.TIM_CTRL_ONESHOT t)) fun s => s.off (F.TIM_CTRL_EN t)
  let s := chans.foldl (fun s c => s.onBit (F.TIM_STATUS_CH t) c) s
  (s.timerEvents (chans.map (fun c => 4 * t + c) ++ (if ovf then [32 + t] else []))).pinSync

/-! ### Captures (R308, R309) -/

def capBit (t c b : Nat) : Fld := ⟨R.TIM_CAPFLAG t, 4 * c + b, 1⟩

def State.timCapture (s : State) (t c : Nat) (rising : Bool) : State :=
  let cnt := s.rd (R.TIM_CNT t)
  if rising then
    let s := s.iff (s.flag (capBit t c 0)) fun s => s.on (capBit t c 2)
    (s.wr (R.TIM_CAPR t c) cnt).on (capBit t c 0)
  else
    let s := s.iff (s.flag (capBit t c 1)) fun s => s.on (capBit t c 3)
    { (s.on (capBit t c 1)).onBit (F.TIM_STATUS_CH t) c with capf := tabSet (dflt 0) s.capf (4 * t + c) cnt }

/-- What a read of TIM_t_CAPR_c does besides returning the rising capture. -/
def State.caprSide (s : State) (t c : Nat) : State :=
  ((s.off (capBit t c 0)).off (capBit t c 1)).wr (R.TIM_CAPF t c) (tabGet (dflt 0) s.capf (4 * t + c))

/-- A write to the TIM block: event selects 40 to 62 leave their field. -/
def State.timWrite (s : State) (off : Nat) (v : Word) : State :=
  let a := 0x400A0000 + off
  if off < 0x800 ∧ off % 0x100 = 0 then
    let old := s.rd a
    let keep := fun (v : Word) lo => if 40 ≤ bitsOf v lo 6 ∧ bitsOf v lo 6 ≤ 62 then setBits v lo 6 (bitsOf old lo 6) else v
    s.maskWrite a (keep (keep v 16) 8)
  else s.maskWrite a v

/-! ### Watchdog (R312 to R314) -/

def State.wdtFrozen (s : State) : Bool := s.flag F.WDT_CTRL_EN && s.flag F.WDT_CTRL_DBGFRZ && s.cc.halted
/-- The watchdog counts: not in HOLD, emulated or not (R313, R375), nor while the debugger has it frozen. -/
def State.wdtRuns (s : State) : Bool :=
  s.flag F.WDT_CTRL_EN && s.pclkOn && s.modeNow != 0 && (s.modeNow != 4 || decide (2 ≤ s.mode.resumeStep)) && !s.wdtFrozen

/-- An LFCLK edge as the watchdog sees it: an accepted service makes COUNT 0, otherwise COUNT rises; WARN follows where COUNT
changes to it, or the timeout. -/
def State.wdtEdge (s : State) : State :=
  if !s.wdtRuns then s
  else if s.wdtSvc then
    let hit := s.get F.WDT_WARN_LF == 0 && s.get F.WDT_COUNT_LF != 0
    ({ s.wr R.WDT_COUNT 0 with wdtSvc := false }).iff hit fun s => s.on F.WDT_STATUS_WARN
  else
    let n := s.get F.WDT_COUNT_LF + 1
    let s := s.put F.WDT_COUNT_LF n
    let s := s.iff (n == s.get F.WDT_WARN_LF) fun s => s.on F.WDT_STATUS_WARN
    if s.get F.WDT_TIMEOUT_LF ≤ n then s.deviceReset F.SYS_RESET_CAUSE_WDT else s

/-- The release of a frozen count (R314). -/
def State.wdtRelease (s : State) : State :=
  if s.flag F.WDT_CTRL_EN && s.flag F.WDT_CTRL_DBGFRZ && decide (s.get F.WDT_TIMEOUT_LF < s.get F.WDT_COUNT_LF + 1024) then
    s.put F.WDT_COUNT_LF (s.get F.WDT_TIMEOUT_LF - 1024)
  else s

def State.wdtServiceWrite (s : State) (v : Word) : State :=
  if !s.flag F.WDT_CTRL_EN then s
  else if bitsOf v 0 8 = 0xC3 ∧ s.get F.WDT_WIN_LF ≤ s.get F.WDT_COUNT_LF then { s with wdtSvc := true }
  else s.deviceReset F.SYS_RESET_CAUSE_WDT

def State.wdtCtrlWrite (s : State) (v : Word) : State :=
  let t := s.put F.WDT_CTRL_DBGFRZ (bitsOf v 30 1)
  if s.flag F.WDT_CTRL_EN then t.iff (!bitOf v 31) fun t => t.on F.WDT_STATUS_REFUSED
  else if !bitOf v 31 then t
  else if s.get F.WDT_WIN_LF < s.get F.WDT_TIMEOUT_LF ∧ s.get F.WDT_WARN_LF < s.get F.WDT_TIMEOUT_LF
      ∧ 1024 ≤ s.get F.WDT_TIMEOUT_LF then
    { (t.on F.WDT_CTRL_EN).wr R.WDT_COUNT 0 with wdtSvc := false }
  else t.on F.WDT_STATUS_REFUSED

/-- A write to the WDT block. -/
def State.wdtWrite (s : State) (off : Nat) (v : Word) : State :=
  if off = 0 then s.wdtCtrlWrite v
  else if off = 0x14 then s.wdtServiceWrite v
  else if s.flag F.WDT_CTRL_EN && (off == 8 || off == 0xC || off == 0x10) then s.on F.WDT_STATUS_REFUSED
  else s.maskWrite (0x400B0000 + off) v

/-! ### The rows -/

/-- A prescaled tick of timer t (R305 to R307). -/
def execTimerTick (t : TimerNo) (s : State) : Out := .next <| if s.timRuns t.val then s.timTick t.val else s

/-- The tick at which timer t overflows; no other tick is one (R305). -/
def execTimerOverflow (t : TimerNo) (s : State) : Out := .next <|
  if s.timRuns t.val && s.timOvf t.val then s.timTick t.val else s

/-- The tick at which channel `ch` of timer t matches; no other tick is one (R306). -/
def execTimerMatch (t : TimerNo) (ch : BitVec 2) (s : State) : Out := .next <|
  if s.timRuns t.val && s.timMatches t.val ch.toNat then s.timTick t.val else s

/-- An edge at a capture input, which its pin must carry (R308, R344). -/
def execTimerCapture (t : TimerNo) (ch : BitVec 2) (rising : Bool) (s : State) : Out := .next <|
  let f := 64 + 4 * t.val + ch.toNat
  if !s.fnSees f then s
  else
    let p := s.get (F.PIN_SEL_PIN f)
    let s := s.setExt p rising
    if s.get (F.TIM_CCFG_MODE t.val ch.toNat) == 2 && s.pclkOn && s.padLevel p == rising then
      (s.timCapture t.val ch.toNat rising).pinSync
    else s.pinSync

/-- The LFCLK edge at which COUNT changes to WARN (R312). -/
def execWdtWarn (s : State) : Out := .next <|
  let next := if s.wdtSvc then 0 else s.get F.WDT_COUNT_LF + 1
  if s.wdtRuns && next == s.get F.WDT_WARN_LF && next != s.get F.WDT_COUNT_LF then s.wdtEdge else s

/-- The LFCLK edge at which COUNT reaches TIMEOUT (R312). -/
def execWdtTimeout (s : State) : Out := .next <|
  if s.wdtRuns && !s.wdtSvc && decide (s.get F.WDT_TIMEOUT_LF ≤ s.get F.WDT_COUNT_LF + 1) then s.wdtEdge else s

/-- The code of an input (R315): channel 8 is given in 0.25 °C, as SYS_TEMP's sensor has it, every other channel in µV. An analogue
input whose pin is not in analogue mode is grounded (R344). -/
def State.adcCode (s : State) (ch : Nat) (x : Int) : Nat :=
  let raw : Int := if ch = 8 then 1600 + 2 * x
    else if ch < 8 && !s.flag (F.PIN_CFG_ANA (64 + ch)) then 0 else 4096 * x / 1800000
  (clampI 0 4095 raw).toNat

/-- A conversion of the running sequence ends with input `x` (R316). -/
def execAdcConversionDone (x : Int) (s : State) : Out := .next <|
  if !s.flag F.ADC_STATUS_BUSY || !s.pclkOn then s
  else
    let i := s.adcSlot
    let ch := s.adcSlotCh i
    let s := s.iff (s.flag (F.ADC_RES_NEW i)) fun s => (s.on (F.ADC_RES_OVR i)).on F.ADC_STATUS_OVR
    let s := (((s.put (F.ADC_RES_CH i) ch).put ⟨R.ADC_RES i, 0, 12⟩ (s.adcCode ch x)).on (F.ADC_RES_NEW i))
    if i + 1 < s.get F.ADC_CTRL_LEN then { s with adcSlot := i + 1 }
    else { (s.off F.ADC_STATUS_BUSY).on F.ADC_STATUS_DONE with adcSlot := 0 }

/-- READY, 10 µs after EN (R317). -/
def execAdcReady (s : State) : Out := .next <| if s.flag F.ADC_CTRL_EN && s.pclkOn then s.on F.ADC_STATUS_READY else s

end Sys2Proof.Machine
end

