-- ==== Sys2Proof/Machine/Icu.lean ====
section
/-! DEFINITION. The interrupt controller (R296 to R302, R304): the level of every request line, requests, the candidate,
acceptance and end of interrupt; and the MSI-X triggers that hear the same requests (R331). -/

namespace Sys2Proof.Machine

/-! ### Request lines (R296) -/

/-- A status word and an enable word of the same layout have a bit in common. -/
def State.anyOf (s : State) (st ie : Nat) : Bool := (s.rd st &&& s.rd ie) != 0

/-- UART_n_STATUS: the FIFO levels as they stand. -/
def State.uartStatus (s : State) (n : Nat) : Word :=
  let u := s.uartSt n
  (s.rd (R.UART_STATUS n) &&& 0x1E) ||| w32 (u.rx.length * 2 ^ 24 + u.tx.length * 2 ^ 16 + (if u.tx.isEmpty then 1 else 0))

/-- Source 16 + h (R158, R181), 20 + h (R189). -/
def State.headIrq (s : State) (h : Nat) : Bool :=
  s.anyOf (R.HEAD_EVT_STATUS h) (R.HEAD_EVT_IE h) || s.anyOf (R.HEAD_COMP_STATUS h) (R.HEAD_COMP_IE h)
def State.checkIrq (s : State) (h : Nat) : Bool :=
  ((s.rd (R.HEAD_CHK_STATUS h) &&& s.rd (R.HEAD_CHK_IE h)) &&& 0x7F000000) != 0
    || (s.rd (R.HEAD_CHK_WFAIL h)).toNat &&& (s.head h).airq != 0

def State.dmaIrq (s : State) (n : Nat) : Bool :=
  (s.flag (F.DMA_CH_STATUS_DONE n) && s.flag (F.DMA_CH_CTRL_DONEIE n))
    || ((s.flag (F.DMA_CH_STATUS_ERR n) || s.flag (F.DMA_CH_STATUS_TRIGOVR n)) && s.flag (F.DMA_CH_CTRL_ERRIE n))
def State.camIrq (s : State) (n : Nat) : Bool :=
  (s.flag (F.CAM_STATUS_DONE n) && s.flag (F.CAM_CTRL_DONEIE n))
    || ((s.flag (F.CAM_STATUS_BAD n) || s.flag (F.CAM_STATUS_DROP n)) && s.flag (F.CAM_CTRL_BADIE n))

/-- A mailbox bit of a unit whose lowest leaf lies in erg e is set (R53). -/
def State.mailIrq (s : State) (e : Nat) : Bool :=
  s.flag F.ARRAY_CTRL_MBXIE && s.unitList.any fun x =>
    match x.2.slot with
    | some sl => natBit (s.get (F.ARRAY_MBX_PEND_BITS (sl / 32))) (sl % 32) && s.lowestLeaf x.1 / 64 == e
    | none => false

/-- AUD_STATUS: VEVT shows AUD_VEVT (R294). -/
def State.audStatus (s : State) : Word :=
  let w := s.rd R.AUD_STATUS &&& ~~~(0x200 : Word)
  if s.rd R.AUD_VEVT = 0 then w else w ||| 0x200

/-- The level of request line n. -/
def State.irqLevel (s : State) (n : Nat) : Bool :=
  if n < 16 then s.flag F.ARRAY_CTRL_FAULTIE && s.get (F.ERG_FAULT_RIDGE n) != 0
  else if n < 20 then s.headIrq (n - 16)
  else if n < 24 then s.checkIrq (n - 20)
  else if n < 26 then
    let w := s.rd R.BLIT_STATUS &&& s.rd R.BLIT_IE
    if n = 24 then w &&& 0xB != 0 else bitOf w 2
  else if n < 34 then s.dmaIrq (n - 26)
  else if n < 36 then s.camIrq (n - 34)
  else if n = 36 then (s.audStatus &&& s.rd R.AUD_IE) &&& 0x3FFF != 0
  else if n < 45 then s.anyOf (R.TIM_STATUS (n - 37)) (R.TIM_IE (n - 37))
  else if n = 45 then s.flag F.WDT_STATUS_WARN
  else if n = 46 then s.anyOf R.ADC_STATUS R.ADC_IE
  else if n = 47 then s.anyOf R.PCIE_STATUS R.PCIE_IE
  else if n < 50 then s.anyOf (R.ETH_STATUS (n - 48)) (R.ETH_IE (n - 48))
  else if n = 50 then s.anyOf R.PRG_STATUS R.PRG_IE
  else if n < 59 then natBit (s.pinEvents.toNat) (n - 51) && natBit (s.get F.PIN_EVT_IE_BITS) (n - 51)
  else if n < 61 then (s.uartStatus (n - 59) &&& s.rd (R.UART_IE (n - 59))) &&& 0x1F != 0
  else if n < 63 then s.anyOf (R.SPI_STATUS (n - 61)) (R.SPI_IE (n - 61))
  else if n < 65 then s.anyOf (R.I2C_STATUS (n - 63)) (R.I2C_IE (n - 63))
  else if n = 65 then s.anyOf R.STORE_STATUS R.STORE_IE
  else if n = 66 then
    s.flag F.CFG_CTRL_SWIE && (s.flag F.CFG_PROFILE_STATUS_DONE || s.flag F.CFG_PROFILE_STATUS_FAIL)
  else if n = 67 then (s.rd R.SYS_EVT_STATUS &&& s.rd R.SYS_EVT_IE) &&& 0xFF != 0
  else if n = 68 then (s.rd R.SYS_EVT_STATUS &&& s.rd R.SYS_EVT_IE) &&& 0xFF00 != 0
  else if n = 69 then s.flag F.DBG_CTRL_CHIE && (s.flag F.DBG_CHAN_STATUS_D2CFULL || s.flag F.DBG_STATUS_CMPEV)
  else if n < 86 then s.mailIrq (n - 70)
  else false

/-! ### MSI-X triggers (R331) -/

/-- Vector v is triggered: pending, or dropped while the link is down or MSI-X is disabled. -/
def State.msixTrigger (s : State) (v : Nat) : State :=
  if s.flag F.PCIE_STATUS_LINKUP && s.pcie.msixEn then
    { s with pcie := { s.pcie with pend := s.pcie.pend ||| w32 (2 ^ v) } }
  else s.on F.PCIE_STATUS_MSIDROP

/-- The vectors that listen to ICU source n are triggered by its rise. -/
def State.msixSource (s : State) (n : Nat) : State :=
  s.forEach 32 fun v s => s.iff (s.get (F.PCIE_VSRC_SRC v) == n) fun s => s.msixTrigger v

/-! ### Pending, candidate, stack (R298 to R301) -/

def State.pendBit (s : State) (n : Nat) : Bool := bitOf (s.rd (R.ICU_PEND (n / 32))) (n % 32)
def State.enBit (s : State) (n : Nat) : Bool := bitOf (s.rd (R.ICU_EN (n / 32))) (n % 32)
def State.setPend (s : State) (n : Nat) : State := if n < 86 then s.onBit (F.ICU_PEND_BITS (n / 32)) (n % 32) else s
def State.prioOf (s : State) (n : Nat) : Nat := s.get (F.ICU_SRC_PRIO n)

def State.filtSt (s : State) (n : Nat) : FiltSt := tabGet (dflt {}) s.icuFilt n
def State.setFilt (s : State) (n : Nat) (x : FiltSt) : State := { s with icuFilt := tabSet (dflt {}) s.icuFilt n x }

/-- The filtered request of source n (R297). -/
def State.filtered (s : State) (n : Nat) : Bool := (s.filtSt n).out

/-- The filter of source n lets the level of its line through: bypassed, or the level has been held for FILT PCLK. -/
def State.filtPass (s : State) (n : Nat) : Bool :=
  let f := s.get (F.ICU_SRC_FILT n)
  f == 0 || ((s.filtSt n).level == s.irqLevel n && decide (f ≤ (s.filtSt n).held))

/-- One PCLK of the filter of source n: the level is held one PCLK longer or taken anew; a level held low long enough is the filtered
request's. That a level held high has become it is the row INTERRUPT_REQUEST (log 63). -/
def State.filtNext (s : State) (n : Nat) : FiltSt :=
  let x := s.filtSt n
  let l := s.irqLevel n
  let held := if x.level = l then min 15 (x.held + 1) else 1
  { level := l, held, out := x.out && (l || decide (held < s.get (F.ICU_SRC_FILT n))) }

/-- One PCLK of every filter. -/
def State.filtTick (s : State) : State :=
  { s with icuFilt := (List.range 86).foldl (fun t n => tabSet (dflt {}) t n (s.filtNext n)) s.icuFilt }

/-- A line that has fallen and whose filter is bypassed leaves its filtered request low. -/
def State.linesSettle (s : State) : State :=
  { s with icuFilt := s.icuFilt.foldl (fun t e =>
      if e.2.out && s.get (F.ICU_SRC_FILT e.1) == 0 && !s.irqLevel e.1 then
        tabSet (dflt {}) t e.1 { level := false, held := 0, out := false }
      else t) s.icuFilt }

/-- The pending, enabled source of highest priority, the lowest number first among equals (R299). -/
def State.candidate (s : State) : Option Nat :=
  (List.range 86).foldl (fun best n =>
    if s.pendBit n && s.enBit n then
      match best with
      | none => some n
      | some b => if s.prioOf b < s.prioOf n then some n else best
    else best) none

/-- The candidate is above the running priority. -/
def State.offered (s : State) (n : Nat) : Bool :=
  match s.icuStack with
  | [] => true
  | t :: _ => decide (t.2 < s.prioOf n)

/-- A pending, enabled source ends a WAIT of the control core (R114). -/
def State.icuWake (s : State) : State :=
  if s.cc.asleep && !s.cc.halted && s.candidate.isSome then
    { s with cc := { s.cc with asleep := false, ready := max s.cc.ready s.now } }
  else s

/-- The filtered request of source n takes the level of its line, where the filter lets it through; its rise pends the source (R298)
and triggers the vectors that listen to it (R331). -/
def State.requestNow (s : State) (n : Nat) : State :=
  let l := s.irqLevel n
  if s.filtPass n && l != s.filtered n then
    (s.setFilt n { s.filtSt n with out := l }).iff l fun s => ((s.setPend n).msixSource n).icuWake
  else s

/-- A write to ICU_SET_k (reserved sources are ignored). -/
def State.icuSetWrite (s : State) (k : Nat) (v : Word) : State :=
  (s.wr (R.ICU_PEND k) (s.rd (R.ICU_PEND k) ||| (v &&& w32 (icuMask k)))).icuWake

/-- A write to ICU_PEND_k: the ones clear. -/
def State.icuPendWrite (s : State) (k : Nat) (v : Word) : State := s.wr (R.ICU_PEND k) (s.rd (R.ICU_PEND k) &&& ~~~v)

/-- A write of one to EOI (R301): pop; a source whose filtered request is high becomes pending again (R298). -/
def State.icuEoiWrite (s : State) : State :=
  match s.icuStack with
  | [] => s.on F.ICU_STATUS_EOIERR
  | (n, _) :: rest =>
    let s := { s with icuStack := rest }.offBit (F.ICU_ACT_BITS (n / 32)) (n % 32)
    (s.iff (s.filtered n) fun s => s.setPend n).icuWake

/-- A write to ICU_SRC_n: the filter's count starts again (R297). -/
def State.icuSrcWrite (s : State) (n : Nat) (v : Word) : State :=
  (s.maskWrite (R.ICU_SRC n) v).setFilt n { s.filtSt n with held := 0 }

/-- A write to the ICU block; it finds the filtered requests as the lines now leave them. -/
def State.icuWrite (s : State) (off : Nat) (v : Word) : State :=
  let a := 0x40090000 + off
  let s := s.linesSettle
  if off = 0 then s.iff (bitOf v 0) fun s => s.icuEoiWrite
  else if 0x40 ≤ off ∧ off < 0x50 then s.icuPendWrite ((off - 0x40) / 4) v
  else if 0x50 ≤ off ∧ off < 0x60 then s.icuSetWrite ((off - 0x50) / 4) v
  else if 0x60 ≤ off ∧ off < 0x70 then (s.wr a (v &&& w32 (icuMask ((off - 0x60) / 4)))).icuWake
  else if 0x100 ≤ off ∧ off < 0x258 then s.icuSrcWrite ((off - 0x100) / 4) v
  else s.maskWrite a v

/-- ICU_RUNPRI. -/
def State.icuRunpri (s : State) : Word :=
  match s.icuStack with
  | [] => 0x80000000
  | (n, p) :: _ => w32 (s.icuStack.length * 2 ^ 16 + n * 256 + p)

/-- ICU_HIPEND. -/
def State.icuHipend (s : State) : Word :=
  match s.candidate with
  | none => 0
  | some n => w32 (2 ^ 31 + (if s.offered n then 2 ^ 30 else 0) + n * 256 + s.prioOf n)

/-- ICU_STACK_i, entry 0 the bottom. -/
def State.icuStackWord (s : State) (i : Nat) : Word :=
  match s.icuStack.reverse[i]? with
  | some (n, p) => w32 (2 ^ 31 + n * 256 + p)
  | none => 0

/-- ICU_SRC_n with the line's levels. -/
def State.icuSrc (s : State) (n : Nat) : Word :=
  (s.rd (R.ICU_SRC n) &&& 0x3FFFFFFF) ||| w32 ((if s.irqLevel n then 2 ^ 31 else 0) + (if s.filtered n then 2 ^ 30 else 0))

/-! ### The rows -/

/-- The filtered request of source n rises (R298). -/
def execInterruptRequest (n : IrqNo) (s : State) : Out := .next <| s.requestNow n.val

/-- At an instruction boundary the core accepts the offered candidate (R300, R122, R123). -/
def execInterruptAccept (s : State) : Out := .next <|
  let x := s.cc
  match s.candidate with
  | none => s
  | some n =>
    if s.runnable .cc && s.offered n && x.ie && !x.exl then
      let p := s.prioOf n
      let s := (s.offBit (F.ICU_PEND_BITS (n / 32)) (n % 32)).onBit (F.ICU_ACT_BITS (n / 32)) (n % 32)
      let s := { s with icuStack := (n, p) :: s.icuStack }
      s.draw.enterFirst .cc x.pc { num := 32 + n, eaddr := Config.interruptEaddr s.freeCtr } (max s.now x.ready)
    else s

end Sys2Proof.Machine
end

