-- ==== Sys2Proof/Machine/Clock.lean ====
section
/-! DEFINITION. What one PCLK period brings with no command: the PTP clock advances (R336), the filters of the request lines count
(R297), the event lines look at their pins (R350), and LFCLK, 32,768 Hz, moves on; at an LFCLK edge the watchdog counts (R312). The
other time-driven effects are commands of the table. -/

namespace Sys2Proof.Machine

/-- LFCLK against PCLK: an edge falls after 100,000,000 / 32,768 periods of 10 ns on average. -/
def State.lfTick (s : State) : State :=
  let p := s.mode.lfPhase + 32768
  if p < 100000000 then { s with mode := { s.mode with lfPhase := p } }
  else { s with mode := { s.mode with lfPhase := p - 100000000, lf := s.mode.lf + 1 } }.wdtEdge

/-- One PCLK period passes (24 periods of the VCO). -/
def State.idleClock (s : State) : State :=
  let s := { s with now := s.now + 24 }
  (if s.pclkOn then { s.filtTick with ptp := s.ptp.tick (s.rd R.ETH_0_PTP_INC) }.pinSync else s).lfTick

end Sys2Proof.Machine
end

