-- ==== Sys2Proof/Machine/Operands.lean ====
section
/-! DEFINITION. Operand forms of the instruction set: general registers (R79), immediates, targets (R84), effective
addresses (R97, R99), and special registers (R80, R121). -/

namespace Sys2Proof.Machine

/-- Read a general register; g0 reads zero (R79). -/
def CoreSt.gr (x : CoreSt) (r : RegNo) : Word := if r = 0 then 0 else tabGet (dflt 0) x.g r.toNat

/-- Write a general register; a write to g0 is discarded (R79). -/
def CoreSt.setGr (x : CoreSt) (r : RegNo) (v : Word) : CoreSt :=
  if r = 0 then x else { x with g := tabSet (dflt 0) x.g r.toNat v }

/-- Sign- and zero-extended 16-bit immediates (R92). -/
def sxImm (i : BitVec 16) : Word := i.signExtend 32
def zxImm (i : BitVec 16) : Word := i.setWidth 32

/-- Branch and jump targets from the instruction's own address (R84). -/
def branchTarget (pc : Word) (off : BitVec 16) : Word := pc + off.signExtend 32 * 4
def jumpTarget (pc : Word) (off : BitVec 26) : Word := pc + off.signExtend 32 * 4

/-- Effective addresses: based, and short absolute through BNK[15:0] (R97, R99). -/
def CoreSt.eaBased (x : CoreSt) (rs : RegNo) (i : BitVec 16) : Word := x.gr rs + sxImm i
def CoreSt.eaShort (x : CoreSt) (a16 : BitVec 16) : Word := w32 (bitsOf x.bnk 0 16 * 65536 + a16.toNat)
def CoreSt.eaSp (x : CoreSt) (i : BitVec 16) : Word := x.sp + sxImm i

/-- A special register that needs privilege on the control core (R80). -/
def srPriv (sr : Nat) : Bool := decide (13 ≤ sr ∧ sr ≤ 22)

/-- The value of special register `sr`; PC is the instruction's own address, CYCLE the array's counter (R80). -/
def State.srRead (s : State) (x : CoreSt) (sr : Nat) (t : Nat) : Word :=
  match sr with
  | 0 => x.pc | 1 => x.status | 2 => x.bnk | 3 => x.sp | 4 => x.rsp
  | 5 => x.lc0 | 6 => x.ls0 | 7 => x.le0 | 8 => x.lc1 | 9 => x.ls1 | 10 => x.le1
  | 11 => x.mlo | 12 => x.mhi
  | 13 => x.epc | 14 => x.estat | 15 => x.ecause | 16 => x.eaddr | 17 => x.vbase
  | 18 => x.spc | 19 => x.sstat | 20 => x.ssp | 21 => x.sysent | 22 => x.dfpc
  | 23 => x.ctxid
  | 24 => s.cycleAt t
  | _ => 0

/-- The bits of STATUS a write changes: all fields at privileged level, the flags and three enables at user level; on a
span engine PRIV reads 1 and IE reads 0 whatever is written (R80, R81). -/
def statusWrite (c : Ctx) (old v : Word) : Word :=
  match c with
  | .cc => if bitOf old stPRIV then v &&& 0xF0000F07
           else (old &&& ~~~(0xF0000700 : Word)) ||| (v &&& 0xF0000700)
  | .se _ => ((v &&& 0xF0000F07) ||| 2) &&& ~~~(1 : Word)

/-- ESTAT and SSTAT have the layout of STATUS; ECAUSE keeps SUB, ACC and NUMBER (R3, R120). -/
def CoreSt.srWrite (x : CoreSt) (c : Ctx) (sr : Nat) (v : Word) : CoreSt :=
  match sr with
  | 1 => { x with status := statusWrite c x.status v }
  | 2 => { x with bnk := v &&& 0xFFFF }
  | 3 => { x with sp := v }
  | 4 => { x with rsp := v }
  | 5 => { x with lc0 := v }
  | 6 => { x with ls0 := v }
  | 7 => { x with le0 := v }
  | 8 => { x with lc1 := v }
  | 9 => { x with ls1 := v }
  | 10 => { x with le1 := v }
  | 11 => { x with mlo := v }
  | 12 => { x with mhi := v }
  | 13 => { x with epc := v &&& ~~~(3 : Word) }
  | 14 => { x with estat := v &&& 0xF0000F07 }
  | 15 => { x with ecause := v &&& 0x00FF07FF }
  | 16 => { x with eaddr := v }
  | 17 => { x with vbase := v &&& ~~~(0x3FF : Word) }
  | 18 => { x with spc := v &&& ~~~(3 : Word) }
  | 19 => { x with sstat := v &&& 0xF0000F07 }
  | 20 => { x with ssp := v }
  | 21 => { x with sysent := v &&& ~~~(3 : Word) }
  | 22 => { x with dfpc := v &&& ~~~(3 : Word) }
  | 23 => { x with ctxid := v &&& 0xFFF }
  | _ => x

end Sys2Proof.Machine
end

