-- ==== Sys2Proof/Machine/Flags.lean ====
section
/-! DEFINITION. Results and flags of the integer instructions (R90, R91, R93, R96). -/

namespace Sys2Proof.Machine

/-- A 32-bit result with the C and V it gives. -/
structure AluRes where
  val : Word
  c : Bool := false
  v : Bool := false
  deriving DecidableEq, Repr

/-- STATUS with its four flags replaced. -/
def setNZCV (st : Word) (n z c v : Bool) : Word :=
  (st &&& 0x0FFFFFFF) ||| ((if n then 0x80000000 else 0) ||| (if z then 0x40000000 else 0)
    ||| (if c then 0x20000000 else 0) ||| (if v then 0x10000000 else 0))

/-- Flags from a result: N and Z from its 32 bits, C and V as the operation gives them (R90). -/
def CoreSt.setFlags (x : CoreSt) (r : AluRes) : CoreSt :=
  { x with status := setNZCV x.status (bitOf r.val 31) (r.val == 0) r.c r.v }

def CoreSt.fN (x : CoreSt) : Bool := bitOf x.status 31
def CoreSt.fZ (x : CoreSt) : Bool := bitOf x.status 30
def CoreSt.fC (x : CoreSt) : Bool := bitOf x.status 29
def CoreSt.fV (x : CoreSt) : Bool := bitOf x.status 28

/-- a + b + carry: C carry out, V signed overflow (R91). -/
def addRes (a b : Word) (ci : Bool) : AluRes :=
  let n := a.toNat + b.toNat + ci.toNat
  let i := a.toInt + b.toInt + (ci.toNat : Int)
  { val := w32 n, c := decide (2 ^ 32 ≤ n), v := decide (i < -(2 ^ 31) ∨ 2 ^ 31 ≤ i) }

/-- a − b − borrow: C = 1 if no borrow, V signed overflow (R91). -/
def subRes (a b : Word) (borrow : Bool) : AluRes :=
  let i := a.toInt - b.toInt - (borrow.toNat : Int)
  { val := a - b - w32 borrow.toNat, c := decide (b.toNat + borrow.toNat ≤ a.toNat),
    v := decide (i < -(2 ^ 31) ∨ 2 ^ 31 ≤ i) }

/-- A result that clears C and V. -/
def plain (w : Word) : AluRes := { val := w }

/-- 1 or 0. -/
def boolWord (b : Bool) : Word := if b then 1 else 0

/-- Shifts by rt[5:0] (R91). -/
def sllBy (a : Word) (n : Nat) : Word := if 32 ≤ n then 0 else a <<< n
def srlBy (a : Word) (n : Nat) : Word := if 32 ≤ n then 0 else a >>> n
def sraBy (a : Word) (n : Nat) : Word := a.sshiftRight (min n 31)
def rorBy (a : Word) (n : Nat) : Word := a.rotateRight n

/-- Leading zeros, 0 to 32. -/
def clzOf (a : Word) : Nat :=
  ((List.range 32).find? fun i => bitOf a (31 - i)).getD 32

/-- The condition codes of BF (R102). -/
def condHolds (x : CoreSt) (code : Nat) : Bool :=
  match code with
  | 0 => x.fZ
  | 1 => !x.fZ
  | 2 => x.fC
  | 3 => !x.fC
  | 4 => x.fN
  | 5 => !x.fN
  | 6 => x.fV
  | 7 => !x.fV
  | 8 => x.fC && !x.fZ
  | 9 => !x.fC || x.fZ
  | 10 => x.fN == x.fV
  | 11 => x.fN != x.fV
  | 12 => !x.fZ && (x.fN == x.fV)
  | 13 => x.fZ || (x.fN != x.fV)
  | _ => false

end Sys2Proof.Machine
end

