-- ==== Sys2Proof/Machine/Alu.lean ====
section
/-! DEFINITION. The integer, multiplier and divider instructions (R90 to R96) and the immediate instructions (R92), each
one definition over `State.alu`, `State.product` and `State.divide`. -/

namespace Sys2Proof.Machine

/-! ### Shared operations -/

/-- An instruction of one cycle whose result goes to rd; `fl` says whether it sets the flags. Where it would set V and
OVT = 1 it raises exception 9 and leaves rd and STATUS as they were (R93). -/
def State.alu (s : State) (c : Ctx) (i : Instr) (rd : RegNo) (fl : Bool) (f : CoreSt → AluRes) : State :=
  s.issue c i fun t s =>
    let x := s.core c
    let r := f x
    if fl && r.v && bitOf x.status stOVT then s.raise c t 1 { num := 9 }
    else s.setCore c (((if fl then x.setFlags r else x).setGr rd r.val).retire (t + s.perOf c))

/-- The accumulator a new product adds to: with every product still in flight (R94). -/
def CoreSt.accum (x : CoreSt) : BitVec 64 :=
  match x.products.getLast? with
  | some p => p.2
  | none => x.mhi ++ x.mlo

/-- Start a product, which lands 3 cycles of the issuing clock after the issue (R94). -/
def State.product (s : State) (c : Ctx) (i : Instr) (f : CoreSt → BitVec 64) : State :=
  s.issue c i fun t s =>
    s.modCore c fun x =>
      { x with products := x.products ++ [(t + 3 * s.perOf c, f x)] }.retire (t + s.perOf c)

/-- Every product in flight has landed. -/
def CoreSt.landAll (x : CoreSt) : CoreSt :=
  match x.products.getLast? with
  | some p => { x with mlo := p.2.setWidth 32, mhi := (p.2 >>> 32).setWidth 32, products := [] }
  | none => x

/-- A divide of 34 cycles (R96): quotient, remainder and V from `f`; divisor zero and overflow may trap. -/
def State.divide (s : State) (c : Ctx) (i : Instr) (a b : RegNo) (f : Word → Word → Word × Word × Bool) : State :=
  s.issue c i fun t s =>
    let x := (s.core c).landAll
    let s := s.setCore c x
    let d := x.gr b
    let r := if d = 0 then (0xFFFFFFFF, x.gr a, false) else f (x.gr a) d
    if d = 0 ∧ bitOf x.status stDZT then s.raise c t 34 { num := 8 }
    else if r.2.2 && bitOf x.status stOVT then s.raise c t 34 { num := 9 }
    else s.setCore c ({ x with mlo := r.1, mhi := r.2.1, status := setNZCV x.status false (d == 0) false r.2.2 }.retire
      (t + 34 * s.perOf c))

/-! ### The REG group (R91) -/

/-- rd = rs | rt (R91). -/
def execOr (c : Ctx) (rd rs rt : RegNo) (fl : Bool) (s : State) : Out := .next <|
  s.alu c (.or c rd rs rt fl) rd fl fun x => plain ((x.gr rs) ||| (x.gr rt))

/-- rd = rs & rt. -/
def execAnd (c : Ctx) (rd rs rt : RegNo) (fl : Bool) (s : State) : Out := .next <|
  s.alu c (.and c rd rs rt fl) rd fl fun x => plain ((x.gr rs) &&& (x.gr rt))

/-- rd = rs ^ rt. -/
def execXor (c : Ctx) (rd rs rt : RegNo) (fl : Bool) (s : State) : Out := .next <|
  s.alu c (.xor c rd rs rt fl) rd fl fun x => plain ((x.gr rs) ^^^ (x.gr rt))

/-- rd = rs & ~rt. -/
def execAndn (c : Ctx) (rd rs rt : RegNo) (fl : Bool) (s : State) : Out := .next <|
  s.alu c (.andn c rd rs rt fl) rd fl fun x => plain ((x.gr rs) &&& ~~~(x.gr rt))

/-- rd = rs + rt. -/
def execAdd (c : Ctx) (rd rs rt : RegNo) (fl : Bool) (s : State) : Out := .next <|
  s.alu c (.add c rd rs rt fl) rd fl fun x => addRes (x.gr rs) (x.gr rt) false

/-- rd = rs − rt. -/
def execSub (c : Ctx) (rd rs rt : RegNo) (fl : Bool) (s : State) : Out := .next <|
  s.alu c (.sub c rd rs rt fl) rd fl fun x => subRes (x.gr rs) (x.gr rt) false

/-- rd = rs + rt + C. -/
def execAdc (c : Ctx) (rd rs rt : RegNo) (fl : Bool) (s : State) : Out := .next <|
  s.alu c (.adc c rd rs rt fl) rd fl fun x => addRes (x.gr rs) (x.gr rt) x.fC

/-- rd = rs − rt − (1 − C). -/
def execSbc (c : Ctx) (rd rs rt : RegNo) (fl : Bool) (s : State) : Out := .next <|
  s.alu c (.sbc c rd rs rt fl) rd fl fun x => subRes (x.gr rs) (x.gr rt) (!x.fC)

/-- rd = 0 − rs; the flags are set whatever S is (R90). -/
def execNeg (c : Ctx) (rd rs : RegNo) (fl : Bool) (s : State) : Out := .next <|
  s.alu c (.neg c rd rs fl) rd true fun x => subRes 0 (x.gr rs) false

/-- rd = |rs|; N and Z from the result, C = 0, V = 1 for 0x8000_0000, whatever S is. -/
def execAbs (c : Ctx) (rd rs : RegNo) (fl : Bool) (s : State) : Out := .next <|
  s.alu c (.abs c rd rs fl) rd true fun x => { val := if bitOf (x.gr rs) 31 then 0 - x.gr rs else x.gr rs, v := x.gr rs == 0x80000000 }

/-- rd = (rs < rt signed). -/
def execSlt (c : Ctx) (rd rs rt : RegNo) (fl : Bool) (s : State) : Out := .next <|
  s.alu c (.slt c rd rs rt fl) rd fl fun x => plain (boolWord ((x.gr rs).slt (x.gr rt)))

/-- rd = (rs < rt unsigned). -/
def execSltu (c : Ctx) (rd rs rt : RegNo) (fl : Bool) (s : State) : Out := .next <|
  s.alu c (.sltu c rd rs rt fl) rd fl fun x => plain (boolWord ((x.gr rs).ult (x.gr rt)))

/-- Signed minimum. -/
def execMin (c : Ctx) (rd rs rt : RegNo) (fl : Bool) (s : State) : Out := .next <|
  s.alu c (.min c rd rs rt fl) rd fl fun x => plain (if (x.gr rs).slt (x.gr rt) then (x.gr rs) else (x.gr rt))

/-- Signed maximum. -/
def execMax (c : Ctx) (rd rs rt : RegNo) (fl : Bool) (s : State) : Out := .next <|
  s.alu c (.max c rd rs rt fl) rd fl fun x => plain (if (x.gr rs).slt (x.gr rt) then (x.gr rt) else (x.gr rs))

/-- Unsigned minimum. -/
def execMinu (c : Ctx) (rd rs rt : RegNo) (fl : Bool) (s : State) : Out := .next <|
  s.alu c (.minu c rd rs rt fl) rd fl fun x => plain (if (x.gr rs).ult (x.gr rt) then (x.gr rs) else (x.gr rt))

/-- Unsigned maximum. -/
def execMaxu (c : Ctx) (rd rs rt : RegNo) (fl : Bool) (s : State) : Out := .next <|
  s.alu c (.maxu c rd rs rt fl) rd fl fun x => plain (if (x.gr rs).ult (x.gr rt) then (x.gr rt) else (x.gr rs))

/-- Shift by rt[5:0]. -/
def execSll (c : Ctx) (rd rs rt : RegNo) (fl : Bool) (s : State) : Out := .next <|
  s.alu c (.sll c rd rs rt fl) rd fl fun x => plain (sllBy (x.gr rs) (bitsOf (x.gr rt) 0 6))

/-- Shift by rt[5:0]. -/
def execSrl (c : Ctx) (rd rs rt : RegNo) (fl : Bool) (s : State) : Out := .next <|
  s.alu c (.srl c rd rs rt fl) rd fl fun x => plain (srlBy (x.gr rs) (bitsOf (x.gr rt) 0 6))

/-- Shift by rt[5:0]. -/
def execSra (c : Ctx) (rd rs rt : RegNo) (fl : Bool) (s : State) : Out := .next <|
  s.alu c (.sra c rd rs rt fl) rd fl fun x => plain (sraBy (x.gr rs) (bitsOf (x.gr rt) 0 6))

/-- rd = rs rotated right by rt[4:0]. -/
def execRor (c : Ctx) (rd rs rt : RegNo) (fl : Bool) (s : State) : Out := .next <|
  s.alu c (.ror c rd rs rt fl) rd fl fun x => plain (rorBy (x.gr rs) (bitsOf (x.gr rt) 0 5))

/-- Shift or rotate by the amount in the rt field. -/
def execSlli (c : Ctx) (rd rs : RegNo) (amt : BitVec 5) (fl : Bool) (s : State) : Out := .next <|
  s.alu c (.slli c rd rs amt fl) rd fl fun x => plain (sllBy (x.gr rs) amt.toNat)

/-- Shift or rotate by the amount in the rt field. -/
def execSrli (c : Ctx) (rd rs : RegNo) (amt : BitVec 5) (fl : Bool) (s : State) : Out := .next <|
  s.alu c (.srli c rd rs amt fl) rd fl fun x => plain (srlBy (x.gr rs) amt.toNat)

/-- Shift or rotate by the amount in the rt field. -/
def execSrai (c : Ctx) (rd rs : RegNo) (amt : BitVec 5) (fl : Bool) (s : State) : Out := .next <|
  s.alu c (.srai c rd rs amt fl) rd fl fun x => plain (sraBy (x.gr rs) amt.toNat)

/-- Shift or rotate by the amount in the rt field. -/
def execRori (c : Ctx) (rd rs : RegNo) (amt : BitVec 5) (fl : Bool) (s : State) : Out := .next <|
  s.alu c (.rori c rd rs amt fl) rd fl fun x => plain (rorBy (x.gr rs) amt.toNat)

/-- Leading zeros of rs. -/
def execClz (c : Ctx) (rd rs : RegNo) (fl : Bool) (s : State) : Out := .next <|
  s.alu c (.clz c rd rs fl) rd fl fun x => plain (w32 (clzOf (x.gr rs)))

/-- rd = sign-extended rs[7:0]. -/
def execSextb (c : Ctx) (rd rs : RegNo) (fl : Bool) (s : State) : Out := .next <|
  s.alu c (.sextb c rd rs fl) rd fl fun x => plain (((x.gr rs).setWidth 8).signExtend 32)

/-- rd = sign-extended rs[15:0]. -/
def execSexth (c : Ctx) (rd rs : RegNo) (fl : Bool) (s : State) : Out := .next <|
  s.alu c (.sexth c rd rs fl) rd fl fun x => plain (((x.gr rs).setWidth 16).signExtend 32)

/-- rd = byte rt[1:0] of rs. -/
def execBext (c : Ctx) (rd rs rt : RegNo) (fl : Bool) (s : State) : Out := .next <|
  s.alu c (.bext c rd rs rt fl) rd fl fun x => plain (w32 (bitsOf (x.gr rs) (8 * bitsOf (x.gr rt) 0 2) 8))

/-! ### Multiplier and divider (R94 to R96) -/

/-- MHI:MLO = rs × rt, signed. -/
def execMul (c : Ctx) (rs rt : RegNo) (s : State) : Out := .next <|
  s.product c (.mul c rs rt) fun x => (x.gr rs).signExtend 64 * (x.gr rt).signExtend 64

/-- MHI:MLO = rs × rt, unsigned. -/
def execMulu (c : Ctx) (rs rt : RegNo) (s : State) : Out := .next <|
  s.product c (.mulu c rs rt) fun x => (x.gr rs).setWidth 64 * (x.gr rt).setWidth 64

/-- MHI:MLO += rs × rt, signed, modulo 2⁶⁴. -/
def execMac (c : Ctx) (rs rt : RegNo) (s : State) : Out := .next <|
  s.product c (.mac c rs rt) fun x => x.accum + (x.gr rs).signExtend 64 * (x.gr rt).signExtend 64

/-- MHI:MLO += rs × rt, unsigned, modulo 2⁶⁴. -/
def execMacu (c : Ctx) (rs rt : RegNo) (s : State) : Out := .next <|
  s.product c (.macu c rs rt) fun x => x.accum + (x.gr rs).setWidth 64 * (x.gr rt).setWidth 64

/-- MLO = rs / rt truncated toward zero, MHI = remainder with the sign of the dividend; V for 0x8000_0000 by −1 (R96). -/
def execDiv (c : Ctx) (rs rt : RegNo) (s : State) : Out := .next <|
  s.divide c (.div c rs rt) rs rt fun a b =>
    (BitVec.ofInt 32 (a.toInt.tdiv b.toInt), BitVec.ofInt 32 (a.toInt.tmod b.toInt), a == 0x80000000 && b == 0xFFFFFFFF)

/-- As DIV, unsigned. -/
def execDivu (c : Ctx) (rs rt : RegNo) (s : State) : Out := .next <|
  s.divide c (.divu c rs rt) rs rt fun a b => (a / b, a % b, false)

/-- The oldest product in flight lands: its time has come (R94, R95). -/
def execProductLands (c : Ctx) (s : State) : Out := .next <|
  match (s.core c).products with
  | [] => s
  | (d, v) :: ps =>
    { s.modCore c fun x => { x with mlo := v.setWidth 32, mhi := (v >>> 32).setWidth 32, products := ps } with
      now := max s.now d }

/-! ### Immediate instructions (R92) -/

/-- rd = rs + sign-extended imm16. -/
def execAddi (c : Ctx) (rd rs : RegNo) (imm : BitVec 16) (s : State) : Out := .next <|
  s.alu c (.addi c rd rs imm) rd false fun x => plain (x.gr rs + sxImm imm)

/-- rd = rs & zero-extended imm16. -/
def execAndi (c : Ctx) (rd rs : RegNo) (imm : BitVec 16) (s : State) : Out := .next <|
  s.alu c (.andi c rd rs imm) rd false fun x => plain (x.gr rs &&& zxImm imm)

/-- rd = rs | zero-extended imm16. -/
def execOri (c : Ctx) (rd rs : RegNo) (imm : BitVec 16) (s : State) : Out := .next <|
  s.alu c (.ori c rd rs imm) rd false fun x => plain (x.gr rs ||| zxImm imm)

/-- rd = rs ^ zero-extended imm16. -/
def execXori (c : Ctx) (rd rs : RegNo) (imm : BitVec 16) (s : State) : Out := .next <|
  s.alu c (.xori c rd rs imm) rd false fun x => plain (x.gr rs ^^^ zxImm imm)

/-- rd = imm16 << 16. -/
def execLui (c : Ctx) (rd : RegNo) (imm : BitVec 16) (s : State) : Out := .next <|
  s.alu c (.lui c rd imm) rd false fun _ => plain (zxImm imm <<< 16)

/-- rd = (rs < sign-extended imm16, signed). -/
def execSlti (c : Ctx) (rd rs : RegNo) (imm : BitVec 16) (s : State) : Out := .next <|
  s.alu c (.slti c rd rs imm) rd false fun x => plain (boolWord ((x.gr rs).slt (sxImm imm)))

/-- rd = (rs < sign-extended imm16, unsigned). -/
def execSltiu (c : Ctx) (rd rs : RegNo) (imm : BitVec 16) (s : State) : Out := .next <|
  s.alu c (.sltiu c rd rs imm) rd false fun x => plain (boolWord ((x.gr rs).ult (sxImm imm)))

/-- As ADDI, with the flags of ADD. -/
def execAddis (c : Ctx) (rd rs : RegNo) (imm : BitVec 16) (s : State) : Out := .next <|
  s.alu c (.addis c rd rs imm) rd true fun x => addRes (x.gr rs) (sxImm imm) false

/-- SP = SP + sign-extended imm16 (R97). -/
def execAdjsp (c : Ctx) (imm : BitVec 16) (s : State) : Out := .next <|
  s.issue c (.adjsp c imm) fun t s =>
    s.modCore c fun x => { x with sp := x.sp + sxImm imm }.retire (t + s.perOf c)

end Sys2Proof.Machine
end

