-- ==== Sys2Proof/Machine/Audio.lean ====
section
/-! DEFINITION. Annunciation audio (R276 to R293, R295): sources, buses, ducking, channels, the tick, and the writes to the
AUD block. -/

namespace Sys2Proof.Machine

/-! ### Arithmetic (R283) -/

/-- Saturate to a signed 24-bit sample. -/
def sat24 (v : Int) : Int := clampI (-8388608) 8388607 v

/-- v / 2^n to the nearest, halves away from zero. -/
def roundShift (n : Nat) (v : Int) : Int :=
  let m := (v.natAbs + 2 ^ (n - 1)) / 2 ^ n
  if v < 0 then -(m : Int) else m

/-- A sample times an unsigned Q1.15 gain. -/
def gain15 (v : Int) (g : Nat) : Int := roundShift 15 (v * (g : Int))

/-! ### Source kinds (R278) -/

def isVoice (n : Nat) : Bool := decide (n < 32)
def isStream (n : Nat) : Bool := decide (32 ≤ n ∧ n < 36)
/-- A source that plays samples from DRAM. -/
def State.playsDram (s : State) (n : Nat) : Bool := isStream n || (isVoice n && decide (5 ≤ s.get (F.AUD_V_CTRL_WAVE n)))

/-- Bytes that `len` samples take, and the alignment of their address. -/
def State.sampleSpan (s : State) (n : Nat) (len : Nat) : Nat × Nat :=
  if isStream n then (2 * len, 2)
  else match s.get (F.AUD_V_CTRL_WAVE n) with
    | 5 => (len, 1)
    | 6 => (2 * len, 2)
    | _ => ((len + 1) / 2, 1)

def State.audLen (s : State) (n : Nat) : Nat := s.get (F.AUD_V_LEN_LEN n)

/-! ### Source state (R282) -/

/-- The seed of the noise register. -/
def lfsrSeed (wave : Nat) : Nat := if wave = 3 then 0x7F else 0x7FFF

def State.resetSource (s : State) (n : Nat) : State :=
  let pos := if isStream n then s.get (F.AUD_V_WPTR_WPTR n) else 0
  (s.setAudSrc n { lfsr := lfsrSeed (s.get (F.AUD_V_CTRL_WAVE n)), pos := pos }).wr (R.AUD_V_POS n) (w32 pos)

/-- (WPTR − POS) mod LEN of stream n is below its low mark, while the stream runs (R281). -/
def State.belowMark (s : State) (n : Nat) : Bool :=
  let len := s.audLen n
  let fill := ((s.get (F.AUD_V_WPTR_WPTR n) : Int) - (s.audSrc n).pos) % len
  isStream n && s.flag (F.AUD_V_CTRL_EN n) && len != 0 && decide (fill < (bitsOf (s.rd (R.AUD_V_LOOP n)) 0 24 : Nat))

/-- After whatever has moved POS, WPTR, LEN or the mark of a running stream from `s` to `t`: SLOW sets where the fill falls below the
mark. -/
def State.slowSync (s t : State) (n : Nat) : State :=
  t.iff (s.flag (F.AUD_V_CTRL_EN n) && !s.belowMark n && t.belowMark n) fun t => t.onBit F.AUD_STATUS_SLOW (n - 32)

/-- A refused access of the block: BUSERR, with the address. -/
def State.audErr (s : State) (a : Nat) : State := (s.on F.AUD_STATUS_BUSERR).wr R.AUD_ERR_ADDR (w32 a)

/-- A write to AUD_Vn_CTRL. -/
def State.srcCtrlWrite (s : State) (n : Nat) (v : Word) : State :=
  let was := s.flag (F.AUD_V_CTRL_EN n)
  let s := s.maskWrite (R.AUD_V_CTRL n) v
  let s := s.iff (was && bitOf v 31 && bitOf v 30) fun s => s.resetSource n
  if was || !bitOf v 31 then s
  else
    let a := (s.rd (R.AUD_V_ADDR n)).toNat
    let sp := s.sampleSpan n (s.audLen n)
    if s.playsDram n && !(a % sp.2 == 0 && s.inDram a sp.1) then (s.off (F.AUD_V_CTRL_EN n)).audErr a
    else s.resetSource n

/-! ### Sources (R279 to R281, R290) -/

/-- A synthesised wave at phase p. -/
def State.waveSample (s : State) (n wave : Nat) (p : Word) (lfsr : Nat) : Int :=
  let f : Int := 8388607
  match wave with
  | 0 =>
    let d := s.get (F.AUD_V_CTRL_DUTY n)
    if d = 0 then 0 else if bitsOf p 24 8 < d then f else -f
  | 1 =>
    let q := bitsOf p 8 24
    if q < 8388608 then 2 * (q : Int) - 8388608 else 8388607 - 2 * ((q : Int) - 8388608)
  | 2 | 3 => if lfsr % 2 = 0 then f else -f
  | _ =>
    let i := bitsOf p 26 6
    sgn 8 (bitsOf (s.rd (R.AUD_V_WT n (i / 4))) (8 * (i % 4)) 8) * 65536

/-- One shift of the noise register. -/
def lfsrStep (wave x : Nat) : Nat :=
  let b := (x % 2 + x / 2 % 2) % 2
  if wave = 3 then x % 128 / 2 + b * 64 else x / 2 + b * 16384

/-- A synthesising voice at one tick: p grows, the noise register shifts at a wrap, and the sample is taken. -/
def State.voiceSynth (s : State) (n wave : Nat) : Int × State :=
  let x := s.audSrc n
  let t := x.p.toNat + (s.rd (R.AUD_V_FREQ n)).toNat
  let x := { x with p := w32 t, lfsr := if 2 ^ 32 ≤ t then lfsrStep wave x.lfsr else x.lfsr }
  (s.waveSample n wave x.p x.lfsr, s.setAudSrc n x)

/-- The IMA step table and index adjustments. -/
def imaSteps : List Nat :=
  [7, 8, 9, 10, 11, 12, 13, 14, 16, 17, 19, 21, 23, 25, 28, 31, 34, 37, 41, 45, 50, 55, 60, 66, 73, 80, 88, 97, 107, 118] ++
  [130, 143, 157, 173, 190, 209, 230, 253, 279, 307, 337, 371, 408, 449, 494, 544, 598, 658, 724, 796, 876, 963, 1060] ++
  [1166, 1282, 1411, 1552, 1707, 1878, 2066, 2272, 2499, 2749, 3024, 3327, 3660, 4026, 4428, 4871, 5358, 5894, 6484] ++
  [7132, 7845, 8630, 9493, 10442, 11487, 12635, 13899, 15289, 16818, 18500, 20350, 22385, 24623, 27086, 29794, 32767]
def imaIndex (code : Nat) : Int := match code % 8 with | 4 => 2 | 5 => 4 | 6 => 6 | 7 => 8 | _ => -1

/-- One IMA ADPCM code: new predictor and step index. -/
def imaDecode (pred : Int) (idx code : Nat) : Int × Nat :=
  let st := imaSteps.getD idx 7
  let d := st / 8 + (if code.testBit 2 then st else 0) + (if code.testBit 1 then st / 2 else 0)
    + (if code.testBit 0 then st / 4 else 0)
  let p := if code.testBit 3 then pred - d else pred + d
  (clampI (-32768) 32767 p, (clampI 0 88 ((idx : Int) + imaIndex code)).toNat)

/-- The bytes of sample `i`, or none where the read is refused. -/
def State.audFetch (s : State) (a n : Nat) : Option Nat :=
  if s.inDram a n then some (leNat ((List.range n).map fun i => s.rawByte (a + i))) else none

/-- What a source hands its converter. -/
inductive Pull where
  | sample (v : Int)
  | ended
  | refused (a : Nat)
  deriving DecidableEq, Repr

/-- The next source sample of a sample voice. After the last sample of one that does not loop, its converter empties, 8 samples deep,
and then the voice ends (R280). -/
def State.voicePull (s : State) (n : Nat) : Pull × State :=
  let x := s.audSrc n
  let len := s.audLen n
  let loop := s.rd (R.AUD_V_LOOP n)
  let st := if bitsOf loop 0 24 < len then bitsOf loop 0 24 else 0
  let atEnd := decide (len ≤ x.pos)
  if len = 0 ∨ (atEnd && !bitOf loop 31 && decide (8 ≤ x.drain)) then (.ended, s)
  else if atEnd && !bitOf loop 31 then (.sample 0, s.setAudSrc n { x with drain := x.drain + 1 })
  else
    let x := { x with drain := 0 }
    let x := if atEnd then { x with pos := st, pred := x.loopPred, stepIdx := x.loopIdx } else x
    let x := if x.pos = st then { x with loopPred := x.pred, loopIdx := x.stepIdx } else x
    let base := (s.rd (R.AUD_V_ADDR n)).toNat
    let put := fun (x : SrcSt) (v : Int) =>
      let x := { x with pos := x.pos + 1 }
      (Pull.sample v, (s.setAudSrc n x).wr (R.AUD_V_POS n) (w32 x.pos))
    match s.get (F.AUD_V_CTRL_WAVE n) with
    | 5 => match s.audFetch (base + x.pos) 1 with
      | some b => put x (sgn 8 b * 65536)
      | none => (.refused (base + x.pos), s)
    | 6 => match s.audFetch (base + 2 * x.pos) 2 with
      | some b => put x (sgn 16 b * 256)
      | none => (.refused (base + 2 * x.pos), s)
    | _ => match s.audFetch (base + x.pos / 2) 1 with
      | some b =>
        let r := imaDecode x.pred x.stepIdx (if x.pos % 2 = 0 then b % 16 else b / 16)
        put { x with pred := r.1, stepIdx := r.2 } (r.1 * 256)
      | none => (.refused (base + x.pos / 2), s)

/-- The next sample of a stream: starved it gives 0 (R281). -/
def State.streamPull (s : State) (n : Nat) : Pull × State :=
  let x := s.audSrc n
  let len := s.audLen n
  if x.pos = s.get (F.AUD_V_WPTR_WPTR n) then (.sample 0, s.onBit F.AUD_STATUS_SSTARV (n - 32))
  else
    let a := (s.rd (R.AUD_V_ADDR n)).toNat + 2 * x.pos
    match s.audFetch a 2 with
    | none => (.refused a, s)
    | some b =>
      let p := if x.pos + 1 < len then x.pos + 1 else 0
      (.sample (sgn 16 b * 256), s.slowSync ((s.setAudSrc n { x with pos := p }).wr (R.AUD_V_POS n) (w32 p)) n)

/-- Push a converter input. -/
def pushHist (v : Int) (h : List Int) : List Int := (v :: h).take 16

/-- Pull `k` samples into the converter; answers false where the source has ended or been refused. -/
def State.pullMany (n : Nat) : Nat → State → Bool × State
  | 0, s => (true, s)
  | k + 1, s =>
    let r := if isStream n then s.streamPull n else s.voicePull n
    match r.1 with
    | .sample v => State.pullMany n k (r.2.setAudSrc n { r.2.audSrc n with hist := pushHist v (r.2.audSrc n).hist })
    | .ended => (false, (r.2.off (F.AUD_V_CTRL_EN n)).onBit F.AUD_VEVT_BITS n)
    | .refused a => (false, (r.2.off (F.AUD_V_CTRL_EN n)).audErr a)

/-- The converter's output (R280): unchanged and 8 ticks late at the rate of the tick, else a value the spec does not give. -/
def State.converter (s : State) (n : Nat) (unity : Bool) : Int × State :=
  if unity then ((s.audSrc n).hist.getD 8 0, s) else (sgn 24 (Config.converterOut s.freeCtr).toNat, s.draw)

/-- A source that plays from DRAM, at one tick. -/
def State.playTick (s : State) (n : Nat) : Int × State :=
  let f := (s.rd (R.AUD_V_FREQ n)).toNat
  let x := s.audSrc n
  let acc := bitsOf x.p 0 16 + f
  let r := State.pullMany n (acc / 65536) (s.setAudSrc n { x with p := w32 (acc % 65536) })
  if r.1 then r.2.converter n (f == 0x10000) else (0, r.2)

/-- One intercom slot as a sample: the top 16 or 24 bits (R290). -/
def State.slotSample (s : State) (w : Word) : Int :=
  if s.get (F.AUD_P_CFG_MODE 2) = 1 ∧ s.flag (F.PIN_SEL_EN 102) then
    (if s.flag (F.AUD_P_CFG_WIDTH 2) then sgn 24 (bitsOf w 8 24) else sgn 16 (bitsOf w 16 16) * 256)
  else 0

/-- An intercom channel at one tick: at 16 kHz one input sample in three ticks. -/
def State.intercomTick (s : State) (n : Nat) (w : Word) : Int × State :=
  let slow := s.flag (F.AUD_P_CFG_RATE 2)
  let s := if slow && s.aud.inPhase != 0 then s
    else s.setAudSrc n { s.audSrc n with hist := pushHist (s.slotSample w) (s.audSrc n).hist }
  s.converter n (!slow)

/-- The sample of source n at this tick; `late` says that its DRAM read is late (R282). -/
def State.sourceTick (s : State) (n : Nat) (left right : Word) (late : Bool) : Int × State :=
  if !s.flag (F.AUD_V_CTRL_EN n) then (0, s)
  else if n = 36 then s.intercomTick n left
  else if n = 37 then s.intercomTick n right
  else if s.playsDram n then
    if late then (0, s.iff (isVoice n) fun s => s.onBit F.AUD_VEVT_BITS n) else s.playTick n
  else s.voiceSynth n (s.get (F.AUD_V_CTRL_WAVE n))

/-- Every source in turn: its contribution (bus, sample × gain). -/
def State.sourcesTick (left right : Word) (late : BitVec 38) : List Nat → State → List (Nat × Int) × State
  | [], s => ([], s)
  | n :: ns, s =>
    let r := s.sourceTick n left right (late.getLsbD n)
    let t := State.sourcesTick left right late ns r.2
    ((r.2.get (F.AUD_V_CTRL_BUS n), gain15 r.1 (r.2.get (F.AUD_V_GAIN_GAIN n))) :: t.1, t.2)

/-! ### Buses (R284 to R287) -/

/-- A biquad: output, and x₋₁, x₋₂, y₋₁, y₋₂ for the next tick. -/
def biquad (c st : List Int) (x : Int) : Int × List Int :=
  let g := fun (l : List Int) i => l.getD i 0
  let acc := g c 0 * x + g c 1 * g st 0 + g c 2 * g st 1 - g c 3 * g st 2 - g c 4 * g st 3
  let y := sat24 (roundShift 28 acc)
  (y, [x, g st 0, y, g st 2])

/-- The limiter: output and gain. -/
def limiter (thr rel g : Nat) (y : Int) : Int × Nat :=
  let z := y * (g : Int) / 65536
  if (thr : Int) < z.natAbs then
    let g' := thr * 65536 / y.natAbs
    (y * (g' : Int) / 65536, g')
  else (z, min 0x10000 (g + rel))

/-- Bus b up to and with its gain; its shadow coefficients come into force where COMMIT asked for it. -/
def State.busTick (s : State) (b : Nat) (x : Int) : Int × State :=
  let o := s.audBus b
  let o := if o.commit then
      { o with coef := (List.range 10).map (fun i => sgn 32 (s.rd (R.AUD_B_COEF b i)).toNat), commit := false } else o
  let a := if s.flag (F.AUD_B_CTRL_BQAEN b) then biquad (o.coef.take 5) o.bqA x else (x, o.bqA)
  let c := if s.flag (F.AUD_B_CTRL_BQBEN b) then biquad (o.coef.drop 5) o.bqB a.1 else (a.1, o.bqB)
  let l := if s.flag (F.AUD_B_CTRL_LIMEN b) then
      limiter (s.get (F.AUD_B_LIMIT_THR b)) (s.get (F.AUD_B_LIMIT_RELEASE b)) o.limGain c.1 else (c.1, o.limGain)
  let s := s.iff (s.flag (F.AUD_B_CTRL_LIMEN b) && decide (l.2 < 0x10000)) fun s => s.on F.AUD_STATUS_LIMIT
  (sat24 (gain15 l.1 (s.get (F.AUD_B_GAIN_GAIN b))), s.setAudBus b { o with bqA := a.2, bqB := c.2, limGain := l.2 })

/-- A gain that moves toward a target by a step. -/
def toward (g t st : Nat) : Nat := if g < t then min t (g + st) else max t (g - st)

/-- Ducking (R287): the hold counter and the gain after the ALARM output of this tick. -/
def State.duckTick (s : State) (alarm : Int) : State :=
  let hold := if s.get F.AUD_DUCK_THR_THR ≤ alarm.natAbs then s.get F.AUD_DUCK_HOLD_HOLD else s.aud.hold - 1
  let t := if 0 < hold then s.get F.AUD_DUCK_GAIN_DGAIN else 0x8000
  { s with aud := { s.aud with hold := hold, duckGain := toward s.aud.duckGain t (s.get F.AUD_DUCK_GAIN_STEP) } }

/-- The output of bus b after REFUGE's mute and ducking (R293, R287). -/
def State.busOut (s : State) (b : Nat) (v : Int) : Int :=
  let v := if s.modeNow = 5 ∧ b ≠ 0 then 0 else v
  if natBit (2 * s.get F.AUD_DUCK_CTRL_MASK) b then sat24 (gain15 v s.aud.duckGain) else v

/-- Channel c, and whether it saturated (R288). -/
def State.channel (s : State) (c : Nat) (buses : List Int) : Int × Bool :=
  let sel := s.get (F.AUD_CH_SEL_BUSES c)
  let sum := (List.range 4).foldl (fun a b => if natBit sel b then a + buses.getD b 0 else a) 0
  let p := gain15 (sat24 sum) (s.get (F.AUD_CH_SEL_GAIN c))
  (sat24 p, sat24 sum != sum || sat24 p != p)

/-! ### The tick (R276, R277, R291) -/

def State.audFrozen (s : State) : Bool := s.flag F.DBG_FREEZE_AUD && s.cc.halted

/-- Ticks run (AUD_STATUS.RUN). -/
def State.audRuns (s : State) : Bool := s.flag F.AUD_CTRL_EN && s.linkOn && s.modeNow != 4

/-- The four buses in turn. -/
def State.busesTick (contrib : List (Nat × Int)) : List Nat → State → List Int × State
  | [], s => ([], s)
  | b :: bs, s =>
    let x := sat24 ((contrib.filter fun p => p.1 == b).foldl (fun a p => a + p.2) 0)
    let r := s.busTick b x
    let t := State.busesTick contrib bs r.2
    (r.1 :: t.1, t.2)

/-- One tick of the whole block. -/
def State.audTick (s : State) (left right : Word) (late : BitVec 38) : State :=
  let src := State.sourcesTick left right late (List.range 38) s
  let bus := State.busesTick src.1 (List.range 4) src.2
  let s := bus.2.duckTick (bus.1.getD 0 0)
  let outs := (List.range 4).map fun b => s.busOut b (bus.1.getD b 0)
  let ch := (List.range 16).map fun c => s.channel c outs
  let s := s.iff (ch.any fun p => p.2) fun s => s.on F.AUD_STATUS_CLIP
  let s := s.wr R.AUD_TICK (s.rd R.AUD_TICK + 1)
  { s with aud := { s.aud with ports := s.aud.out, out := ch.map (·.1), inPhase := (s.aud.inPhase + 1) % 3 } }

/-- What a port's slot carries of a channel sample (R289): the sample in the top bits. -/
def State.slotWord (s : State) (p : Nat) (v : Int) : Word :=
  if s.flag (F.AUD_P_CFG_WIDTH p) then w32 (unsgn 24 v * 256)
  else w32 (unsgn 16 (clampI (-32768) 32767 ((v + 128) / 256)) * 65536)

/-- The slots port p sends in the frame now on its wires. -/
def State.portSlots (s : State) (p : Nat) : List Word :=
  let n := match s.get (F.AUD_P_CFG_MODE p) with | 0 => 0 | 1 => 2 | 2 => 4 | _ => 8
  if s.audRuns then (List.range n).map fun i => s.slotWord p (s.aud.ports.getD (8 * p + i) 0) else []

/-- FS and SD of port p in each BCLK period of the frame now on its wires (R289, R290): I2S has FS low for the first slot and high for
the second, TDM a pulse of one period at the start. With DELAY the data run one period behind, over the last bit of the frame before,
which is zero as every sample leaves it. An input port sends FS alone. -/
def State.portFrame (s : State) (p : Nat) : List (Bool × Bool) :=
  let i2s := s.get (F.AUD_P_CFG_MODE p) == 1
  let slots := if p = 2 then (if i2s && s.audRuns then [0, 0] else []) else s.portSlots p
  let bits := slots.flatMap fun w => (List.range 32).map fun i => bitOf w (31 - i)
  let data := if s.flag (F.AUD_P_CFG_DELAY p) then false :: bits.dropLast else bits
  (data.take bits.length).zipIdx.map fun e =>
    ((if i2s then decide (32 ≤ e.2) else decide (e.2 = 0)) != s.flag (F.AUD_P_CFG_FSPOL p), e.1)

/-! ### Writes -/

/-- A write to AUD_CTRL: EN = 0 ends ticks and drives the ports low; every write selects the tick source again. -/
def State.audCtrlWrite (s : State) (v : Word) : State :=
  let s := (s.maskWrite R.AUD_CTRL v).put F.AUD_STATUS_MCLKEXT (bitsOf v 16 1)
  if bitOf v 31 then s else { s with aud := { s.aud with out := [], ports := [] } }

/-- A write to the AUD block. -/
def State.audWrite (s : State) (off : Nat) (v : Word) : State :=
  let a := 0x40080000 + off
  if off = 0 then s.audCtrlWrite v
  else if 0x20 ≤ off ∧ off < 0x2C then (if s.flag F.AUD_CTRL_EN then s else s.maskWrite a v)
  else if 0x200 ≤ off ∧ off < 0x300 ∧ off % 0x40 = 0 then
    let b := (off - 0x200) / 0x40
    (s.maskWrite a v).iff (bitOf v 31) fun s => s.setAudBus b { s.audBus b with commit := true }
  else if 0x1000 ≤ off ∧ off < 0x2300 then
    let n := (off - 0x1000) / 0x80
    s.slowSync (match (off - 0x1000) % 0x80 with
      | 0 => s.srcCtrlWrite n v
      | 4 => if s.playsDram n && decide (0x40000 < v.toNat) then s else s.maskWrite a v
      | _ => s.maskWrite a v) n
  else s.maskWrite a v

/-! ### The rows -/

/-- A tick (R276): `left` and `right` are the slots of input port P2, `late` the sources whose DRAM read is late. While the
block is frozen the ports send zero (R374). -/
def execAudioTick (left right : Word) (late : BitVec 38) (s : State) : Out := .next <|
  if !s.audRuns then s
  else if s.audFrozen then { s with aud := { s.aud with out := [], ports := [] } }
  else s.audTick left right late

/-- AUD_MCLK has shown no edge for 1 µs (R276). -/
def execMclklost (s : State) : Out := .next <|
  if s.flag F.AUD_CTRL_CLKSRC then
    (s.on F.AUD_STATUS_MCLKLOST).off F.AUD_STATUS_MCLKEXT
  else s

end Sys2Proof.Machine
end

