-- ==== Sys2Proof/Machine/PixelInsn.lean ====
section
/-! DEFINITION. The pixel instructions that access no memory (R107, R108, R110). -/

namespace Sys2Proof.Machine

/-- Byte lane k. -/
def lane (a : Word) (k : Nat) : Nat := bitsOf a (8 * k) 8
/-- Signed half h. -/
def halfS (a : Word) (h : Nat) : Int := sgn 16 (bitsOf a (16 * h) 16)
/-- A word from its four byte lanes. -/
def fromLanes (f : Nat → Nat) : Word := w32 (f 3 * 2 ^ 24 + f 2 * 2 ^ 16 + f 1 * 2 ^ 8 + f 0)
/-- A word from its two signed halves. -/
def fromHalves (f : Nat → Int) : Word := w32 (unsgn 16 (f 1) * 65536 + unsgn 16 (f 0))
/-- sat8 and sat16 of R107. -/
def sat8 (v : Int) : Nat := (clampI 0 255 v).toNat
def sat16 (v : Int) : Int := clampI (-32768) 32767 v

/-- The largest r with r² ≤ n, built bit by bit from bit `k − 1` down. -/
def isqrtBits (n : Nat) : Nat → Nat → Nat
  | 0, r => r
  | k + 1, r => let q := r + 2 ^ k
                isqrtBits n k (if q * q ≤ n then q else r)

/-- RSQE (R110): T = round(32768 / √m) is the largest T with (2T − 1)² m ≤ 2³². -/
def rsqe (x : Word) : Word :=
  if x = 0 then 0xFFFFFFFF
  else
    let n := 31 - clzOf x
    let p := n / 2 * 2
    let m := if 6 ≤ p then x.toNat >>> (p - 6) else x.toNat <<< (6 - p)
    let t := (isqrtBits (2 ^ 32 / m) 17 0 + 1) / 2
    w32 (min (t <<< (20 - p / 2)) 0xFFFFFFFF)

/-- RSQS (R110). -/
def rsqs (x y : Word) : Word :=
  let u := (x.toNat * ((y.toNat * y.toNat) >>> 24)) >>> 16
  if 3 * 2 ^ 24 ≤ u then 0 else w32 (min ((y.toNat * (3 * 2 ^ 24 - u)) >>> 25) 0xFFFFFFFF)

/-- A pixel instruction: rd from rs and rt, STATUS unchanged. -/
def State.pix (s : State) (c : Ctx) (i : Instr) (rd rs rt : RegNo) (cyc : Nat) (f : Word → Word → Word) : State :=
  s.issue c i fun t s =>
    s.modCore c fun x => (x.setGr rd (f (x.gr rs) (x.gr rt))).retire (t + cyc * s.perOf c)

/-- Per byte: min(255, s + d). -/
def execPaddub (c : Ctx) (rd rs rt : RegNo) (s : State) : Out := .next <|
  s.pix c (.paddub c rd rs rt) rd rs rt 1 fun a d => fromLanes fun k => min 255 (lane a k + lane d k)

/-- Per byte: max(0, s − d). -/
def execPsubub (c : Ctx) (rd rs rt : RegNo) (s : State) : Out := .next <|
  s.pix c (.psubub c rd rs rt) rd rs rt 1 fun a d => fromLanes fun k => lane a k - lane d k

/-- Per signed half: sat16(s + d). -/
def execPaddh (c : Ctx) (rd rs rt : RegNo) (s : State) : Out := .next <|
  s.pix c (.paddh c rd rs rt) rd rs rt 1 fun a d => fromHalves fun h => sat16 (halfS a h + halfS d h)

/-- Per signed half: sat16(s − d). -/
def execPsubh (c : Ctx) (rd rs rt : RegNo) (s : State) : Out := .next <|
  s.pix c (.psubh c rd rs rt) rd rs rt 1 fun a d => fromHalves fun h => sat16 (halfS a h - halfS d h)

/-- Per signed half: sat16((s × d + 0x4000) >> 15). -/
def execPmulh (c : Ctx) (rd rs rt : RegNo) (s : State) : Out := .next <|
  s.pix c (.pmulh c rd rs rt) rd rs rt 1 fun a d => fromHalves fun h => sat16 ((halfS a h * halfS d h + 0x4000) / 32768)

/-- Four signed halves to unsigned bytes. -/
def execPackub (c : Ctx) (rd rs rt : RegNo) (s : State) : Out := .next <|
  s.pix c (.packub c rd rs rt) rd rs rt 1 fun a d => fromLanes fun k =>
      match k with
      | 3 => sat8 (halfS a 1)
      | 2 => sat8 (halfS a 0)
      | 1 => sat8 (halfS d 1)
      | _ => sat8 (halfS d 0)

/-- Per byte: d255(s × d[7:0]). -/
def execMula (c : Ctx) (rd rs rt : RegNo) (s : State) : Out := .next <|
  s.pix c (.mula c rd rs rt) rd rs rt 1 fun a d => fromLanes fun k => d255 (lane a k * lane d 0)

/-- s with alpha replaced by d255(a × d[7:0]). -/
def execCov (c : Ctx) (rd rs rt : RegNo) (s : State) : Out := .next <|
  s.pix c (.cov c rd rs rt) rd rs rt 1 fun a d => setBits a 24 8 (d255 (lane a 3 * lane d 0))

/-- Colour: d255(s × a + d × (255 − a)); alpha: a + d255(d_a × (255 − a)). -/
def execBlend (c : Ctx) (rd rs rt : RegNo) (s : State) : Out := .next <|
  s.pix c (.blend c rd rs rt) rd rs rt 1 fun a d => fromLanes fun k =>
      let al := lane a 3
      if k = 3 then al + d255 (lane d 3 * (255 - al)) else d255 (lane a k * al + lane d k * (255 - al))

/-- Per byte: min(255, s + d255(d × (255 − a))). -/
def execBlendp (c : Ctx) (rd rs rt : RegNo) (s : State) : Out := .next <|
  s.pix c (.blendp c rd rs rt) rd rs rt 1 fun a d => fromLanes fun k => min 255 (lane a k + d255 (lane d k * (255 - lane a 3)))

/-- Reciprocal square-root estimate (R110). -/
def execRsqe (c : Ctx) (rd rs : RegNo) (s : State) : Out := .next <|
  s.pix c (.rsqe c rd rs) rd rs 0 1 fun a _ => rsqe a

/-- One Newton step, 2 cycles (R107, R110). -/
def execRsqs (c : Ctx) (rd rs rt : RegNo) (s : State) : Out := .next <|
  s.pix c (.rsqs c rd rs rt) rd rs rt 2 fun a d => rsqs a d

end Sys2Proof.Machine
end

