-- ==== Sys2Proof/Machine/Branch.lean ====
section
/-! DEFINITION. Branches, jumps and zero-overhead loops (R84, R88, R89, R102 to R106). The transfers that push or pop
stand in Machine/Stack.lean. -/

namespace Sys2Proof.Machine

/-- Prediction is off for a control-core transfer: NPRED = 1 or after BARP (R88). -/
def CoreSt.noPred (x : CoreSt) : Bool := bitOf x.status stNPRED || x.barp

/-- A conditional branch with offset `off`, taken or not: target, cycles and squashed instructions (R88, R89). -/
def State.condBranch (s : State) (c : Ctx) (i : Instr) (off : BitVec 16) (taken : CoreSt → Bool) : State :=
  s.issue c i fun t s =>
    let x := s.core c
    let tk := taken x
    let predicted := bitOf (off.signExtend 32) 31
    let miss := isCc c && !x.noPred && (predicted != tk)
    let cyc :=
      if !isCc c then (if tk then 2 else 1)
      else if x.noPred then (if tk then 3 else 1)
      else if miss then 4 else 1
    let s := if miss then { s.wr R.PERF_SQUASH (s.rd R.PERF_SQUASH + Config.squashed s.freeCtr) with
                              freeCtr := s.freeCtr + 1 } else s
    if tk then s.transfer c t cyc (branchTarget x.pc off)
    else s.setCore c ({ x with barp := false }.retire (t + cyc * s.perOf c))

/-- Cycles of a jump that is never predicted: JR, CALLR, RET and a skipped loop body (R88). -/
def regJumpCycles (c : Ctx) (x : CoreSt) : Nat := if !isCc c then 2 else if x.noPred then 3 else 4
/-- Cycles of J and CALL (R88). -/
def jumpCycles (c : Ctx) (x : CoreSt) : Nat := if !isCc c then 2 else if x.noPred then 3 else 1

/-- LOOP and LOOPI set up level n with a count and a distance (R104). -/
def State.loopSetup (s : State) (c : Ctx) (i : Instr) (n : Bool) (count : CoreSt → Word) (d : BitVec 16) : State :=
  s.issue c i fun t s =>
    let x := s.core c
    let ls := x.pc + 4
    let le := x.pc + d.setWidth 32 * 4
    let k := count x
    let y := if n then { x with ls1 := ls, le1 := le, lc1 := k } else { x with ls0 := ls, le0 := le, lc0 := k }
    let y := { y with status := y.status ||| 0x800 }
    if k = 0 then (s.setCore c y).transfer c t (regJumpCycles c x) (le + 4)
    else s.setCore c (y.retire (t + s.perOf c))

/-- Branch if rs = rt. (R102) -/
def execBeq (c : Ctx) (rs rt : RegNo) (off : BitVec 16) (s : State) : Out := .next <|
  s.condBranch c (.beq c rs rt off) off fun x => x.gr rs == x.gr rt

/-- Branch if rs ≠ rt. (R102) -/
def execBne (c : Ctx) (rs rt : RegNo) (off : BitVec 16) (s : State) : Out := .next <|
  s.condBranch c (.bne c rs rt off) off fun x => x.gr rs != x.gr rt

/-- Branch if rs < rt, signed. (R102) -/
def execBlt (c : Ctx) (rs rt : RegNo) (off : BitVec 16) (s : State) : Out := .next <|
  s.condBranch c (.blt c rs rt off) off fun x => (x.gr rs).slt (x.gr rt)

/-- Branch if rs ≥ rt, signed. (R102) -/
def execBge (c : Ctx) (rs rt : RegNo) (off : BitVec 16) (s : State) : Out := .next <|
  s.condBranch c (.bge c rs rt off) off fun x => !(x.gr rs).slt (x.gr rt)

/-- Branch if rs < rt, unsigned. (R102) -/
def execBltu (c : Ctx) (rs rt : RegNo) (off : BitVec 16) (s : State) : Out := .next <|
  s.condBranch c (.bltu c rs rt off) off fun x => (x.gr rs).ult (x.gr rt)

/-- Branch if rs ≥ rt, unsigned. (R102) -/
def execBgeu (c : Ctx) (rs rt : RegNo) (off : BitVec 16) (s : State) : Out := .next <|
  s.condBranch c (.bgeu c rs rt off) off fun x => !(x.gr rs).ult (x.gr rt)

/-- Branch on the flags by condition code (R102). -/
def execBf (c : Ctx) (cond : BitVec 5) (off : BitVec 16) (s : State) : Out := .next <|
  s.condBranch c (.bf c cond off) off fun x => condHolds x cond.toNat

/-- Jump to the target (R103). -/
def execJ (c : Ctx) (off : BitVec 26) (s : State) : Out := .next <|
  s.issue c (.j c off) fun t s =>
    s.transfer c t (jumpCycles c (s.core c)) (jumpTarget (s.core c).pc off)

/-- Loop level n with the count in rs (R104). -/
def execLoop (c : Ctx) (rs : RegNo) (n : Bool) (d : BitVec 16) (s : State) : Out := .next <|
  s.loopSetup c (.loop c rs n d) n (fun x => x.gr rs) d

/-- Loop level n with an immediate count (R104). -/
def execLoopi (c : Ctx) (n : Bool) (cnt : BitVec 9) (d : BitVec 16) (s : State) : Out := .next <|
  s.loopSetup c (.loopi c n cnt d) n (fun _ => cnt.setWidth 32) d

/-- Jump to rs; a target with bits [1:0] not zero raises exception 3 (R103). -/
def execJr (c : Ctx) (rs : RegNo) (s : State) : Out := .next <|
  s.issue c (.jr c rs) fun t s =>
    let x := s.core c
    let w := x.gr rs
    if bitsOf w 0 2 ≠ 0 then s.raise c t 1 { num := 3, acc := 7, eaddr := w }
    else s.transfer c t (regJumpCycles c x) w

/-- Bars prediction of the next control transfer (R88). -/
def execBarp (c : Ctx) (s : State) : Out := .next <|
  s.issue c (.barp c) fun t s =>
    s.modCore c fun x => { x with barp := isCc c }.retire (t + s.perOf c)

end Sys2Proof.Machine
end

