-- ==== Sys2Proof/Machine/ArrayRegs.lean ====
section
/-! DEFINITION. The ARRAY block (R54): unit commands (R49), what its read-only registers show, faces by slot (R25), and the
writes to the block. -/

namespace Sys2Proof.Machine

/-! ### Engines by physical number (R20, R51) -/

/-- The logical engine that physical engine p is, if it is any: a spare's own number is not used while it replaces one, and
a replaced engine is none. -/
def State.logicalOf? (s : State) (p : Nat) : Option Nat :=
  match s.phys.find? (fun x => x.2 == p) with
  | some x => some x.1
  | none => if s.physOf p == p then some p else none

/-- The state of physical engine p; one that is no logical engine is held parked. -/
def State.physEngine (s : State) (p : Nat) : CoreSt :=
  match s.logicalOf? p with
  | some e => s.engine e
  | none => {}

/-! ### Unit commands (R49) -/

/-- Carry out command `cmd` on unit u. -/
def State.unitCmdDo (s : State) (cmd u : Nat) : State :=
  if cmd = 1 then s.parkTree u else (s.restartTree u).forgetLines u

/-- A write to ARRAY_UNIT_CMD. The command on a live root waits for its head's frame boundary in the register. -/
def State.unitCmdWrite (s : State) (v : Word) : State :=
  let cmd := bitsOf v 28 4
  let u := bitsOf v 0 12
  if cmd ≠ 1 ∧ cmd ≠ 2 then s
  else if s.flag F.ARRAY_UNIT_CMD_STATUS_BUSY then s.put F.ARRAY_UNIT_CMD_STATUS_RESULT 3
  else match s.unit? u with
    | none => s.put F.ARRAY_UNIT_CMD_STATUS_RESULT 1
    | some x =>
      if x.parent ≠ 0 then s.put F.ARRAY_UNIT_CMD_STATUS_RESULT 2
      else
        let s := s.put F.ARRAY_UNIT_CMD_STATUS_RESULT 0
        if s.isLiveRoot u then (s.on F.ARRAY_UNIT_CMD_STATUS_BUSY).wr R.ARRAY_UNIT_CMD (v &&& 0xF0000FFF)
        else s.unitCmdDo cmd u

/-- At head h's frame boundary: the waiting command, if its unit is one of the head's roots, or no root any more. -/
def State.unitCmdBoundary (s : State) (h : Nat) : State :=
  if s.flag F.ARRAY_UNIT_CMD_STATUS_BUSY then
    let v := s.rd R.ARRAY_UNIT_CMD
    let u := bitsOf v 0 12
    match s.entryOfRoot u with
    | some (h', _) => if h' = h then (s.unitCmdDo (bitsOf v 28 4) u).off F.ARRAY_UNIT_CMD_STATUS_BUSY else s
    | none => (s.unitCmdDo (bitsOf v 28 4) u).off F.ARRAY_UNIT_CMD_STATUS_BUSY
  else s

/-! ### What the block shows -/

/-- ARRAY_STATUS with AWAKE. -/
def State.arrayStatus (s : State) : Word :=
  let n := (s.eng.filter fun x => !x.2.asleep && !x.2.parked).length
  s.rd R.ARRAY_STATUS ||| w32 (n * 1024)
/-- The loader has built the unit tree: R41 says which engines are parked from then on, and the reset value of the register
holds before. -/
def State.treeBuilt (s : State) : Bool := !s.units.isEmpty
/-- ARRAY_PARK_k and DBG_HALT_k. -/
def State.parkWord (s : State) (k : Nat) : Word :=
  w32 (maskOf 32 fun b => s.treeBuilt && (s.engine (32 * k + b)).parked)
def State.haltWord (s : State) (k : Nat) : Word := w32 (maskOf 32 fun b => (s.engine (32 * k + b)).halted)
/-- The physical engine shown in the instruction-memory window of erg n. -/
def State.imSelected (s : State) (n : Nat) : Nat := 64 * n + s.get (F.ERG_IMSEL_ENGINE n)
/-- ERG_n_IMSEL with ACTHALF. -/
def State.imselWord (s : State) (n : Nat) : Word :=
  s.rd (R.ERG_IMSEL n) ||| (if (s.physEngine (s.imSelected n)).actHalf then 0x10000 else 0)
/-- ARRAY_DISPSTAT_h. -/
def State.dispstat (s : State) (h : Nat) : Word :=
  let x := s.head h
  let most := heads4.foldl (fun m r => max m (x.outstanding.filter fun o => o.1 == r).length) 0
  (s.rd (R.ARRAY_DISPSTAT h) &&& 0x0FFF0000) ||| w32 (min most 15 * 256 + x.lead)

/-- A face word at offset `off` (from 0x8000) of the block. -/
def State.slotRead (s : State) (off : Nat) : Word :=
  match s.unitOfSlot ((off - 0x8000) / 0x20) with
  | some u => s.faceRead u (off % 0x20 / 4)
  | none => 0

/-- The block's register at `off` as a reader sees it. -/
def State.arrayValue (s : State) (off : Nat) : Word :=
  if off = 0x4 then s.arrayStatus
  else if off = 0x10 then 0
  else if 0xC0 ≤ off ∧ off < 0x140 then s.parkWord ((off - 0xC0) / 4)
  else if 0x200 ≤ off ∧ off < 0x300 ∧ off % 0x10 = 4 then s.imselWord ((off - 0x200) / 0x10)
  else if 0x600 ≤ off ∧ off < 0x620 ∧ off % 8 = 4 then s.dispstat ((off - 0x600) / 8)
  else if 0x8000 ≤ off then s.slotRead off
  else s.rd (0x40020000 + off)

/-! ### Writes -/

/-- A write to the ARRAY block by the requester that ARRAY_ERR_INFO calls `req`. -/
def State.arrayWrite (s : State) (req off : Nat) (v : Word) : State :=
  let a := 0x40020000 + off
  if off = 0x8 then (s.maskWrite a v).iff (bitOf v 31) fun s => s.off F.ARRAY_ERR_INFO_OVF
  else if off = 0x10 then s.unitCmdWrite v
  else if 0x600 ≤ off ∧ off < 0x620 ∧ off % 8 = 0 then s.leadWriteReg ((off - 0x600) / 8) v
  else if 0x8000 ≤ off then
    match s.unitOfSlot ((off - 0x8000) / 0x20) with
    | some u => s.faceWrite u (off % 0x20 / 4) v req a .outside
    | none => s
  else s.maskWrite a v

end Sys2Proof.Machine
end

