-- ==== Sys2Proof/Machine/PcieRegs.lean ====
section
/-! DEFINITION. The PCIe endpoint's link, registers, configuration header and MSI-X messages (R327, R328, R331, R338). The
windows of BAR 0 and BAR 2 stand in Machine/Pcie.lean. -/

namespace Sys2Proof.Machine

/-! ### The link (R327, R223) -/

/-- The mode lets the link be up: from step 9 of the boot sequence on, outside HOLD and DORMANT. -/
def State.pcieMode (s : State) : Bool :=
  s.linkMode || (s.modeNow == 1 && (s.boot.phase == .heads || s.boot.phase == .picture || s.boot.phase == .done))

/-- The link goes down. -/
def State.linkDown (s : State) : State :=
  if s.flag F.PCIE_STATUS_LINKUP then
    (((s.off F.PCIE_STATUS_LINKUP).off F.PCIE_STATUS_WIDTH).off F.PCIE_STATUS_SPEED).on F.PCIE_STATUS_LINKCHG
  else s

/-! ### Configuration space and MSI-X (R328, R330, R331) -/

/-- A word of the MSI-X table; vectors are masked until the host unmasks them. -/
def msixDefault : Nat → Word := fun k => if k % 4 = 3 then 1 else 0
def State.msixWord (s : State) (k : Nat) : Word := tabGet msixDefault s.pcie.table k
def State.setMsixWord (s : State) (k : Nat) (v : Word) : State :=
  { s with pcie := { s.pcie with table := tabSet msixDefault s.pcie.table k v } }

/-- A base address register: BAR 0 is 64 MiB; BAR 2 and 3 request DRAM_SIZE, or no space. -/
def State.barRead (s : State) (i : Nat) : Word :=
  match i with
  | 0 => s.pcie.bar0
  | 2 => if s.boot.dramBytes = 0 then 0 else s.pcie.bar2 ||| 0xC
  | 3 => if s.boot.dramBytes = 0 then 0 else s.pcie.bar3
  | _ => 0
def State.barWrite (s : State) (i : Nat) (v : Word) : State :=
  match i with
  | 0 => { s with pcie := { s.pcie with bar0 := v &&& 0xFC000000 } }
  | 2 => { s with pcie := { s.pcie with bar2 := v &&& ~~~(w32 (s.boot.dramBytes - 1)) } }
  | 3 => { s with pcie := { s.pcie with bar3 := v } }
  | _ => s

/-! The type 0 header, the device control word and Advanced Error Reporting. R328 names them; their layout is that of PCIe 3.0
(PRESUMED, log 130). -/

/-- The error that a refused request reports: 15 Completer Abort, 20 Unsupported Request (the bit of the AER status). -/
def State.pcieError (s : State) (bit : Nat) : State :=
  { s with pcie := { s.pcie with
      aerUnc := s.pcie.aerUnc ||| w32 (2 ^ bit), devStatus := s.pcie.devStatus ||| (if bit = 20 then 0xA else 0x2),
      status := s.pcie.status ||| (if bit = 15 then 0x0800 else 0) } }

/-- DWORD i of the header; the capability list is present, and neither I/O space nor an interrupt pin is. -/
def State.headerRead (s : State) (i : Nat) : Word :=
  match i with
  | 0 => s.rd R.PCIE_ID
  | 1 => (s.pcie.status ||| 0x10).setWidth 32 <<< 16 ||| s.pcie.command.setWidth 32
  | 2 => 0x03800000 ||| (Config.pcieHeader 2 &&& 0xFF)
  | 3 => s.pcie.cacheLine.setWidth 32
  | 4 | 5 | 6 | 7 | 8 | 9 => s.barRead (i - 4)
  | 11 => Config.pcieHeader 11
  | 13 => Config.pcieHeader 13 &&& 0xFC
  | 15 => s.pcie.intLine.setWidth 32
  | _ => 0
def State.headerWrite (s : State) (i : Nat) (v : Word) : State :=
  match i with
  | 1 => { s with pcie := { s.pcie with command := v.setWidth 16 &&& 0x0546,
                                        status := s.pcie.status &&& ~~~((v >>> 16).setWidth 16 &&& 0xF900) } }
  | 3 => { s with pcie := { s.pcie with cacheLine := v.setWidth 8 } }
  | 4 | 5 | 6 | 7 | 8 | 9 => s.barWrite (i - 4) v
  | 15 => { s with pcie := { s.pcie with intLine := v.setWidth 8 } }
  | _ => s

/-- Device control holds the payload size in bits 7 to 5; a size above 256 bytes is not taken. Device status is cleared by ones. -/
def State.deviceRead (s : State) : Word := s.pcie.devStatus.setWidth 32 <<< 16 ||| s.pcie.payload.setWidth 32 <<< 5
def State.deviceWrite (s : State) (v : Word) : State :=
  let p : BitVec 3 := BitVec.ofNat 3 (bitsOf v 5 3)
  { s with pcie := { s.pcie with payload := if p.toNat ≤ 1 then p else s.pcie.payload,
                                 devStatus := s.pcie.devStatus &&& ~~~((v >>> 16).setWidth 4) } }

/-- The error bits of PCIe 3.0 that an endpoint without ACS, AtomicOps or multicast has. -/
def aerUncBits : Word := 0x005FF030
def aerCorBits : Word := 0x0000F1C1
def State.aerRead (s : State) (i : Nat) : Word :=
  match i with
  | 0 => s.pcie.aerUnc | 1 => s.pcie.aerUncMask | 2 => s.pcie.aerUncSev | 3 => s.pcie.aerCor | 4 => s.pcie.aerCorMask | _ => 0
def State.aerWrite (s : State) (i : Nat) (v : Word) : State :=
  match i with
  | 0 => { s with pcie := { s.pcie with aerUnc := s.pcie.aerUnc &&& ~~~v } }
  | 1 => { s with pcie := { s.pcie with aerUncMask := v &&& aerUncBits } }
  | 2 => { s with pcie := { s.pcie with aerUncSev := v &&& aerUncBits } }
  | 3 => { s with pcie := { s.pcie with aerCor := s.pcie.aerCor &&& ~~~v } }
  | 4 => { s with pcie := { s.pcie with aerCorMask := v &&& aerCorBits } }
  | _ => s

/-! ### Writes (R338) -/

def State.pcieWrite (s : State) (off : Nat) (v : Word) : State :=
  match off with
  | 0x0 =>
    let s := s.maskWrite R.PCIE_CTRL v
    if bitOf v 0 then s else s.linkDown
  | 0x18 => s.forEach 32 fun i s => s.iff (bitOf v i) fun s => s.msixTrigger i
  | _ => s.maskWrite (0x400D0000 + off) v

/-! ### The rows -/

/-- The link comes up (R327) at 2.5, 5 or 8 GT/s; speed code 0 is none of them. -/
def execPcieLinkUp (x2 : Bool) (speed : BitVec 2) (s : State) : Out := .next <|
  if s.flag F.PCIE_STATUS_STRAP && s.flag F.PCIE_CTRL_LINKEN && s.pcieMode && !s.flag F.PCIE_STATUS_LINKUP && speed != 0 then
    (((s.on F.PCIE_STATUS_LINKUP).put F.PCIE_STATUS_WIDTH (if x2 then 2 else 1)).put F.PCIE_STATUS_SPEED speed.toNat).on
      F.PCIE_STATUS_LINKCHG
  else s

/-- The link drops (R327). -/
def execPcieLinkDown (s : State) : Out := .next <| s.linkDown

/-- A pending vector's message leaves (R331); in D3hot the endpoint sends none. -/
def execMsixMessage (vec : BitVec 5) (s : State) : Out := .next <|
  let v := vec.toNat
  if bitOf s.pcie.pend v && s.flag F.PCIE_STATUS_LINKUP && s.pcie.msixEn && !s.pcie.maskAll && !s.pcie.d3hot
      && !bitOf (s.msixWord (4 * v + 3)) 0 then
    { s with pcie := { s.pcie with pend := s.pcie.pend &&& ~~~(w32 (2 ^ v)),
                                   sent := some (s.msixWord (4 * v), s.msixWord (4 * v + 1), s.msixWord (4 * v + 2)) } }
  else s

/-- A configuration request (R328). -/
def execConfigurationRequest (r : CfgReq) (s : State) : Out := .next <|
  if s.flag F.PCIE_STATUS_LINKUP then
    match r with
    | .readId => s.answer (s.rd R.PCIE_ID)
    | .readClass => s.answer 0x03800000
    | .readBar i => s.answer (s.barRead i.toNat)
    | .writeBar i v => s.barWrite i.toNat v
    | .setPower d => { s with pcie := { s.pcie with d3hot := d } }
    | .setMsix e m => { s with pcie := { s.pcie with msixEn := e, maskAll := m } }
    | .readHeader i => s.answer (s.headerRead i.toNat)
    | .writeHeader i v => s.headerWrite i.toNat v
    | .readDevice => s.answer s.deviceRead
    | .writeDevice v => s.deviceWrite v
    | .readAer i => s.answer (s.aerRead i.toNat)
    | .writeAer i v => s.aerWrite i.toNat v
  else s

end Sys2Proof.Machine
end

