-- ==== Sys2Proof/Machine/Serial.lean ====
section
/-! DEFINITION. The serial ports (R337, R340): UART, SPI, I2C and QSPI register writes, the DATA registers, and what comes
in from their lines. An operand of an event row carries what a line that the outside drives has brought. -/

namespace Sys2Proof.Machine

/-! ### FIFOs -/

/-- A FIFO of 16 entries takes another; a full one does not. -/
def fifoPush (l : List Word) (w : Word) : List Word := if l.length < 16 then l ++ [w] else l

/-- A UART character of the width in force. -/
def State.uartChar (s : State) (n : Nat) (w : Word) : Word :=
  if s.flag (F.UART_CTRL_BITS7 n) then w &&& 0x7F else w &&& 0xFF
/-- An SPI frame of the width in force. -/
def State.spiWord (s : State) (n : Nat) (w : Word) : Word := w32 (bitsOf w 0 (s.get (F.SPI_CTRL_BITS n) + 1))
/-- SPI_n_STATUS with its levels; BUSY while a frame waits or runs. -/
def State.spiStatus (s : State) (n : Nat) : Word :=
  let u := s.spiSt n
  (s.rd (R.SPI_STATUS n) &&& 0x3) ||| w32 (u.rx.length * 2 ^ 24 + u.tx.length * 2 ^ 16
    + (if s.flag (F.SPI_CTRL_EN n) && !u.tx.isEmpty then 2 ^ 31 else 0))

/-! ### Freezing (R374) -/

/-- The port's FIFO takes a word; with nothing under way, a frozen port does not start on it. -/
def State.fifoWrite (s : State) (u : FifoSt) (w : Word) : FifoSt :=
  { u with tx := fifoPush u.tx w, txDone := u.txDone || (s.serFrozen && u.tx.isEmpty) }
/-- What was under way has ended; a frozen port stops here. -/
def State.sentOne (s : State) (u : FifoSt) : FifoSt := { u with txDone := s.serFrozen }

/-- The ports run again. -/
def FifoSt.thaw (u : FifoSt) : FifoSt := { u with txDone := false, rxDone := false }
def State.serThaw (s : State) : State :=
  s.forEach 2 fun n s =>
    ((s.setUart n (s.uartSt n).thaw).setSpi n (s.spiSt n).thaw).setI2c n (s.i2cSt n).thaw

/-! ### Writes -/

def State.uartWrite (s : State) (n off : Nat) (v : Word) : State :=
  match off with
  | 0xC => s.setUart n (s.fifoWrite (s.uartSt n) (v &&& 0xFF))
  | 0x10 => if bitsOf v 4 16 = 0 then s else s.maskWrite (R.UART_BAUD n) v
  | _ => s.maskWrite (R.UART_CTRL n + off) v

def State.spiWrite (s : State) (n off : Nat) (v : Word) : State :=
  match off with
  | 0x0 => s.maskWrite (R.SPI_CTRL n) (if 3 ≤ bitsOf v 8 5 then v else setBits v 8 5 (s.get (F.SPI_CTRL_BITS n)))
  | 0xC => s.setSpi n (s.fifoWrite (s.spiSt n) v)
  | _ => s.maskWrite (R.SPI_CTRL n + off) v

/-- A write to I2C_n_CMD: a GO that cannot start is ignored, with the fields written beside it. Of a frozen port the transfer
waits. -/
def State.i2cCmdWrite (s : State) (n : Nat) (v : Word) : State :=
  if bitOf v 31 then
    if s.flag (F.I2C_STATUS_BUSY n) || !s.flag (F.I2C_CTRL_EN n) || bitsOf v 0 5 == 0 || decide (16 < bitsOf v 0 5) then s
    else ((s.maskWrite (R.I2C_CMD n) v).on (F.I2C_STATUS_BUSY n)).setI2c n { s.i2cSt n with txDone := s.serFrozen }
  else s.maskWrite (R.I2C_CMD n) v

def State.i2cWrite (s : State) (n off : Nat) (v : Word) : State :=
  match off with
  | 0xC => s.i2cCmdWrite n v
  | 0x10 => s.setI2c n { s.i2cSt n with tx := fifoPush (s.i2cSt n).tx (v &&& 0xFF) }
  | _ => s.maskWrite (R.I2C_CTRL n + off) v

/-- The profile sequencer is reading the flash: a stage-1 or a stage-3 load (R74). -/
def State.seqReads (s : State) : Bool :=
  s.boot.cache == 0 && ((s.prof.target.isSome && s.prof.plan.isNone) || s.prof.reload.any fun b => !s.prof.reloaded.contains b.unit)

/-- A write to QSPI_CMD. -/
def State.qspiCmdWrite (s : State) (v : Word) : State :=
  if bitOf v 31 then
    if s.flag F.QSPI_STATUS_BUSY || decide (256 < bitsOf v 0 9) then s.on F.QSPI_STATUS_REFUSED
    else ((s.maskWrite R.QSPI_CMD v).on F.QSPI_STATUS_BUSY).iff s.seqReads fun s => s.on F.QSPI_STATUS_HELD
  else s.maskWrite R.QSPI_CMD v

/-- A write to a register of the SER block. -/
def State.serReg (s : State) (off : Nat) (v : Word) : State :=
  let n := off / 0x100 % 0x10
  if off < 0x200 then s.uartWrite n (off % 0x100) v
  else if 0x1000 ≤ off ∧ off < 0x1200 then s.spiWrite n (off % 0x100) v
  else if 0x2000 ≤ off ∧ off < 0x2200 then s.i2cWrite n (off % 0x100) v
  else if off = 0x3000 then s.qspiCmdWrite v
  else s.maskWrite (0x40160000 + off) v

/-- A write to the SER block, and what the event lines see of it. -/
def State.serWrite (s : State) (off : Nat) (v : Word) : State := (s.serReg off v).pinSync

/-! ### Reads of the DATA registers: a read pops, a debug read peeks (R340) -/

def fifoHead (l : List Word) : Word := l.headD 0

/-- The value that a read of a DATA register at offset `off` of the SER block returns. -/
def State.serPeek (s : State) (off : Nat) : Word :=
  let n := off / 0x100 % 0x10
  if off < 0x200 then fifoHead (s.uartSt n).rx
  else if off < 0x1200 then fifoHead (s.spiSt n).rx
  else fifoHead (s.i2cSt n).rx

/-- The same read's effect. -/
def State.serPop (s : State) (off : Nat) : State :=
  let n := off / 0x100 % 0x10
  if off < 0x200 then (s.setUart n { s.uartSt n with rx := (s.uartSt n).rx.tail }).pinSync
  else if off < 0x1200 then s.setSpi n { s.spiSt n with rx := (s.spiSt n).rx.tail }
  else s.setI2c n { s.i2cSt n with rx := (s.i2cSt n).rx.tail }

/-- The offset is a DATA register of the SER block. -/
def serIsData (off : Nat) : Bool :=
  off == 0xC || off == 0x10C || off == 0x100C || off == 0x110C || off == 0x2010 || off == 0x2110

/-! ### The lines -/

/-- The serial lines move: PCLK runs, and DBG_FREEZE does not hold the ports (R374). -/
def State.serRuns (s : State) : Bool := s.linkOn && !s.serFrozen

/-- Functions that drive pin p. -/
def State.pinFns (s : State) (p : Nat) : List Nat := (List.range 60).filter fun f => s.fnOn f p
/-- A driver of pin p other than function f holds it high, and masks f (R345). -/
def State.masked (s : State) (f p : Nat) : Bool :=
  ((s.pinFns p).filter (· != f)).any s.fnLevel ||
    (bitOf (s.rd (R.PIN_P_OE (p / 24))) (p % 24) && bitOf (s.rd (R.PIN_P_OUT (p / 24))) (p % 24))

/-- The character that UART n takes from its pin, with the validity of its parity and of its stop bit (R344): what the outside
brings on a pin that the N1024 does not drive; in a loopback what the UART whose TX drives the pin has sent; of a pin that only
GPIO drives none, or a break. A character that other functions form on the pin is the operand's (log 126). -/
def State.rxChar (s : State) (n : Nat) (d : Byte) (par stop : Bool) : Option (Byte × Bool × Bool) :=
  let p := s.get (F.PIN_SEL_PIN (96 + 2 * n))
  let fs := s.pinFns p
  match s.stage p with
  | none => some (d, par, stop)
  | some v =>
    match [0, 1].find? fun m => fs.contains (32 + 2 * m) with
    | some m =>
      if s.masked (32 + 2 * m) p then none
      else if m = n then some ((s.uartSt m).last.setWidth 8, true, true) else some ((s.uartSt m).last.setWidth 8, par, stop)
    | none => if !fs.isEmpty then some (d, par, stop) else if v then none else some (0, s.get (F.UART_CTRL_PARITY n) != 2, false)

/-- The frame that SPI n takes from MISO while it sends `c` (R344). -/
def State.misoWord (s : State) (n : Nat) (miso c : Word) : Word :=
  let p := s.get (F.PIN_SEL_PIN (100 + n))
  let fs := s.pinFns p
  let mosi := 37 + 6 * n
  match s.stage p with
  | none => miso
  | some v => if fs.contains mosi then (if s.masked mosi p then 0xFFFFFFFF else c)
              else if fs.isEmpty then (if v then 0xFFFFFFFF else 0) else miso

/-- A character arrives on UART n (R337). -/
def State.uartReceive (s : State) (n : Nat) (d : Byte) (par stop : Bool) : State :=
  let s := s.setUart n { s.uartSt n with rxAt := some s.now, rxDone := s.serFrozen }
  let s := s.iff (s.get (F.UART_CTRL_PARITY n) != 0 && !par) fun s => s.on (F.UART_STATUS_PERR n)
  let s := s.iff (!stop) fun s => s.on (F.UART_STATUS_FERR n)
  if s.uartFull n then s.on (F.UART_STATUS_OVR n)
  else s.setUart n { s.uartSt n with rx := (s.uartSt n).rx ++ [s.uartChar n (d.setWidth 32)] }

/-- The transfer of I2C n is over: a written byte has left the FIFO, and a read one has entered it. -/
def State.i2cEnd (s : State) (n : Nat) (f : Fld) (rx : List Byte) : State :=
  let len := s.get (F.I2C_CMD_LEN n)
  let u := s.i2cSt n
  let u := s.sentOne u
  let u := if s.flag (F.I2C_CMD_READ n) then { u with rx := (rx.take len).foldl (fun l b => fifoPush l (b.setWidth 32)) u.rx }
           else { u with tx := u.tx.drop len }
  ((s.setI2c n u).off (F.I2C_STATUS_BUSY n)).on f

/-- SCL and SDA of I2C n both have a pin. -/
def State.i2cRouted (s : State) (n : Nat) : Bool := s.fnSees (48 + 2 * n) && s.fnSees (49 + 2 * n)

/-- Bytes into the QSPI data buffer, from byte `i` on. -/
def State.qspiFill (s : State) (i : Nat) : List Byte → State
  | [] => s
  | b :: bs =>
    let a := R.QSPI_BUF (i / 4)
    (s.wr a (setBits (s.rd a) (8 * (i % 4)) 8 b.toNat)).qspiFill (i + 1) bs

/-- What an erased flash byte reads. -/
def flashDefault : Nat → Byte := fun _ => 0xFF

/-! ### The rows -/

/-- A character received (R337): only while the UART is enabled and its RX function has a pin. -/
def execUartCharacterReceived (n : PortNo) (d : Byte) (par stop : Bool) (s : State) : Out := .next <|
  s.iff (s.flag (F.UART_CTRL_EN n) && s.linkOn && s.serMoves (s.uartSt n).rxDone && s.fnSees (96 + 2 * n.val)) fun s =>
    match s.rxChar n d par stop with
    | some (d, par, stop) => (s.uartReceive n d par stop).pinSync
    | none => s

/-- A queued character has been sent; with RTSCTS it waits for CTS low (R337). -/
def execUartCharacterSent (n : PortNo) (s : State) : Out := .next <|
  match (s.uartSt n).tx with
  | [] => s
  | c :: cs =>
    if s.flag (F.UART_CTRL_EN n) && s.linkOn && s.serMoves (s.uartSt n).txDone
        && !(s.flag (F.UART_CTRL_RTSCTS n) && s.fnIn (97 + 2 * n.val) false) then
      (s.setUart n (s.sentOne { s.uartSt n with tx := cs, last := s.uartChar n c })).pinSync
    else s

/-- No character for IDLE character times (R337); IDLE 0 turns the event off, and a character that has come in this clock wins
(R11). -/
def execUartIdle (n : PortNo) (s : State) : Out := .next <|
  s.iff (s.flag (F.UART_CTRL_EN n) && s.serRuns && s.get (F.UART_IDLE_CHARS n) != 0 && (s.uartSt n).rxAt != some s.now)
    fun s => s.on (F.UART_STATUS_IDLE n)

/-- An SPI frame has been exchanged (R337). -/
def execSpiFrameDone (n : PortNo) (miso : Word) (s : State) : Out := .next <|
  match (s.spiSt n).tx with
  | [] => s
  | c :: cs =>
    if s.flag (F.SPI_CTRL_EN n) && s.linkOn && s.serMoves (s.spiSt n).txDone then
      let u := s.spiSt n
      let full := decide (16 ≤ u.rx.length)
      let got := if s.fnSees (100 + n.val) then s.spiWord n (s.misoWord n miso c) else 0
      let s := s.setSpi n (s.sentOne { u with tx := cs, rx := if full then u.rx else u.rx ++ [got], last := s.spiWord n c })
      ((s.iff full fun s => s.on (F.SPI_STATUS_OVR n)).on (F.SPI_STATUS_DONE n)).pinSync
    else s

/-- An I2C transfer ends with DONE, NACK or ARBLOST (R337); without pins no slave answers and no transfer ends well. -/
def execI2cDone (n : PortNo) (how : I2cEnd) (rx : List Byte) (s : State) : Out := .next <|
  if s.flag (F.I2C_STATUS_BUSY n) && s.serMoves (s.i2cSt n).txDone then
    match how with
    | .done => if s.i2cRouted n then s.i2cEnd n (F.I2C_STATUS_DONE n) rx else s
    | .nack => s.i2cEnd n (F.I2C_STATUS_NACK n) []
    | .arbLost => if s.i2cRouted n then s.i2cEnd n (F.I2C_STATUS_ARBLOST n) [] else s
  else s

/-- Clock stretching beyond TOUT µs (R337); TOUT 0 sets no limit. -/
def execI2cTimeout (n : PortNo) (s : State) : Out := .next <|
  s.iff (s.flag (F.I2C_STATUS_BUSY n) && s.serMoves (s.i2cSt n).txDone && s.get (F.I2C_TOUT_TOUT n) != 0)
    fun s => s.i2cEnd n (F.I2C_STATUS_TIMEOUT n) []

/-- A held QSPI command starts once the sequencer's read has ended (R337). -/
def execQspiCommandStart (s : State) : Out := .next <|
  s.iff (s.flag F.QSPI_STATUS_HELD && !s.seqReads) fun s => s.off F.QSPI_STATUS_HELD

/-- A QSPI command completes (R337): read bytes go to the buffer, and what it changed in the flash is changed. -/
def execQspiDone (rx : List Byte) (prog : List (Nat × Byte)) (s : State) : Out := .next <|
  if s.flag F.QSPI_STATUS_BUSY && !s.flag F.QSPI_STATUS_HELD then
    let s := if s.flag F.QSPI_CMD_WRITE then s else s.qspiFill 0 (rx.take (s.get F.QSPI_CMD_LEN))
    let s := { s with flash := prog.foldl (fun (t : Tab Byte) (p : Nat × Byte) => tabSet flashDefault t p.1 p.2) s.flash }
    (s.off F.QSPI_STATUS_BUSY).on F.QSPI_STATUS_DONE
  else s

end Sys2Proof.Machine
end

