-- ==== Sys2Proof/Machine/RegRead.lean ====
section
/-! DEFINITION. What a read of a register returns and what it does (R4 to R6, R54, R158, R181, R199, R304, R311, R340, R354,
R366, R377): stored words, the fields that show live state, the bits a read clears, and debug reads that only peek. -/

namespace Sys2Proof.Machine

/-! ### Blocks (R7, R8) -/

/-- A block of the table of R8 stands at this address. -/
def inBlock (a : Nat) : Bool := decide (0x40000000 ≤ a ∧ a < 0x40180000) && !decide (a / 0x10000 = 0x4004)
def inDbg (a : Nat) : Bool := decide (a / 0x10000 = 0x4017)

/-! ### Heads -/

/-- A bit vector of a position as the BEAMPOS fields hold it. -/
def State.beampos (s : State) (h : Nat) : Word :=
  let x := s.head h
  w32 (unsgn 16 x.line * 65536 + unsgn 16 x.hpos)

/-- BL_STATUS: pending, being checked, in force. -/
def State.blStatus (s : State) (h : Nat) : Word :=
  let x := s.head h
  let act := match x.blAct with
    | some (b, n) => if n = 0 then 0 else 2 ^ 29 + b * 2 ^ 28
    | none => 0
  (s.rd (R.HEAD_BL_STATUS h) &&& 0x0F0007FF)
    ||| w32 ((if x.blPend.isSome then 2 ^ 31 else 0) + (if x.blCheck.isSome then 2 ^ 30 else 0) + act)

/-- CHK_STATUS with the stale windows. -/
def State.chkStatus (s : State) (h : Nat) : Word := s.rd (R.HEAD_CHK_STATUS h) ||| w32 (maskOf 16 fun n => s.stale h n)

def State.headValue (s : State) (h off : Nat) : Word :=
  let a := 0x40100000 + 0x10000 * h + off
  if off = 0x04 ∧ s.depth6 h then s.rd a ||| 0x80000000
  else if a = R.HEAD_BEAMPOS h then s.beampos h
  else if a = R.HEAD_BL_STATUS h then s.blStatus h
  else if off = 0x504 then s.chkStatus h
  else if 0x8000 ≤ off then s.rawWord (a / 4 * 4)
  else s.rd a

/-! ### The debug block -/

/-- A special-register number that R80 gives to the context. -/
def srExists (c : Ctx) (n : Nat) : Bool := decide (n ≤ 24) && (isCc c || !decide (18 ≤ n ∧ n ≤ 21))

/-- The context that DBG_REG_IDX selects. -/
def State.dbgCtx (s : State) : Ctx :=
  let i := s.rd R.DBG_REG_IDX
  if bitOf i 31 then .cc else .se ⟨bitsOf i 16 10, by simp [bitsOf]; omega⟩

/-- The selected register can be read: its context is halted and the number exists. -/
def State.dbgRegOk (s : State) : Bool :=
  let i := s.rd R.DBG_REG_IDX
  (s.core s.dbgCtx).halted && (!bitOf i 30 || srExists s.dbgCtx (bitsOf i 0 5))

def State.dbgRegValue (s : State) : Word :=
  let i := s.rd R.DBG_REG_IDX
  let x := s.core s.dbgCtx
  if !s.dbgRegOk then 0
  else if bitOf i 30 then s.srRead x (bitsOf i 0 5) s.now
  else x.gr (BitVec.ofNat 5 (bitsOf i 0 5))

/-- DBG_STATUS with the live state. -/
def State.dbgStatus (s : State) : Word :=
  (s.rd R.DBG_STATUS &&& 0x1D) ||| w32 ((if s.flag F.DBG_CTRL_ATTACH then 2 ^ 31 else 0) + (if s.cc.halted then 2 ^ 30 else 0)
    + (if s.cc.lockup then 2 ^ 29 else 0) + (if s.mode.emul.isSome then 2 ^ 28 else 0)
    + (if s.cc.halted then s.cc.reason * 2 ^ 24 else 0))

def State.dbgValue (s : State) (off : Nat) : Word :=
  if off = 0x4 then s.dbgStatus
  else if off = 0x14 then s.dbgRegValue
  else if off = 0x20 then s.dbg.memData
  else if 0x40 ≤ off ∧ off < 0xC0 then s.haltWord ((off - 0x40) / 4)
  else s.rd (0x40170000 + off)

/-! ### Other blocks -/

def State.sysValue (s : State) (off : Nat) : Word :=
  let w := s.rd (0x40000000 + off)
  if 0x40000000 + off = R.SYS_STATUS then
    (w &&& 0x7FFFFFFF) ||| (if s.flag F.DBG_CTRL_ATTACH then 0x80000000 else 0)
  else w

/-- The ICU block. R304 puts ICU_STACK_i and ICU_SRC_(64 + i) at one offset: which of them a read shows is a free value. -/
def State.icuValue (s : State) (off : Nat) : Word :=
  let a := 0x40090000 + off
  if a = R.ICU_RUNPRI then s.icuRunpri
  else if a = R.ICU_HIPEND then s.icuHipend
  else if R.ICU_STACK 0 ≤ a ∧ a < R.ICU_STACK 16 ∧ Config.stackShown ((a - R.ICU_STACK 0) / 4) then
    s.icuStackWord ((a - R.ICU_STACK 0) / 4)
  else if R.ICU_SRC 0 ≤ a ∧ a < R.ICU_SRC 128 then s.icuSrc ((a - R.ICU_SRC 0) / 4)
  else s.rd a

def State.timValue (s : State) (off : Nat) : Word :=
  let a := 0x400A0000 + off
  let t := off / 0x100
  if off < 0x800 ∧ a = R.TIM_STATUS t then s.rd a ||| (if s.flag (F.TIM_CTRL_EN t) then 0x80000000 else 0) else s.rd a

def State.wdtValue (s : State) (off : Nat) : Word :=
  let a := 0x400B0000 + off
  if a = R.WDT_STATUS then
    s.rd a ||| w32 ((if s.wdtRuns then 2 ^ 31 else 0) + (if s.wdtFrozen then 2 ^ 30 else 0))
  else s.rd a

def State.ethValue (s : State) (n off : Nat) : Word :=
  match n, off with
  | 0, 0x104 => w32 s.ptp.ns
  | 0, 0x108 => s.ptpSecLo
  | 0, 0x10C => s.ptpSecHi
  | _, _ => s.rd (R.ETH_CTRL n + off)

def State.serValue (s : State) (off : Nat) : Word :=
  if serIsData off then s.serPeek off
  else if off = 0x4 then s.uartStatus 0
  else if off = 0x104 then s.uartStatus 1
  else if off = 0x1004 then s.spiStatus 0
  else if off = 0x1104 then s.spiStatus 1
  else s.rd (0x40160000 + off)

def State.pinValue (s : State) (off : Nat) : Word :=
  let a := 0x40150000 + off
  if off < 0x80 ∧ a = R.PIN_P_IN (off / 0x20) then s.pinIn (off / 0x20)
  else if a = R.PIN_EVT_STATUS then s.pinEvents
  else s.rd a

/-- The value that a read of the register at address `a` returns. -/
def State.regValue (s : State) (a : Nat) : Word :=
  let off := a % 0x10000
  match a / 0x10000 with
  | 0x4000 => s.sysValue off
  | 0x4002 => s.arrayValue off
  | 0x4006 => if a = R.DMA_ACTIVE then s.dmaActive else s.rd a
  | 0x4008 => if off = 0x4 then s.audStatus ||| (if s.audRuns && !s.audFrozen then 0x80000000 else 0) else s.rd a
  | 0x4009 => s.icuValue off
  | 0x400A => s.timValue off
  | 0x400B => s.wdtValue off
  | 0x400E => s.ethValue 0 off
  | 0x400F => s.ethValue 1 off
  | 0x4010 => s.headValue 0 off
  | 0x4011 => s.headValue 1 off
  | 0x4012 => s.headValue 2 off
  | 0x4013 => s.headValue 3 off
  | 0x4015 => s.pinValue off
  | 0x4016 => s.serValue off
  | 0x4017 => s.dbgValue off
  | _ => s.rd a

/-! ### What an ordinary read does -/

/-- The RC bits of the register are cleared. -/
def State.rcClear (s : State) (a : Nat) : State :=
  match regRow a with
  | some r => if r.rc = 0 then s else s.wr a (s.rd a &&& ~~~(w32 r.rc))
  | none => s

/-- The effect of an ordinary read by a master other than the debug port's own DBGACC. -/
def State.regSide (s : State) (core : Bool) (a : Nat) : State :=
  let off := a % 0x10000
  match a / 0x10000 with
  | 0x400A => if off < 0x800 ∧ 0x40 ≤ off % 0x100 ∧ a = R.TIM_CAPR (off / 0x100) (off % 0x100 / 0x10 % 4) then
                s.caprSide (off / 0x100) (off % 0x100 / 0x10 % 4) else s.rcClear a
  | 0x400C => if R.ADC_RES 0 ≤ a ∧ a < R.ADC_RES 8 then
                (s.off (F.ADC_RES_NEW ((a - R.ADC_RES 0) / 4))).off (F.ADC_RES_OVR ((a - R.ADC_RES 0) / 4)) else s
  | 0x400E => if off = 0x104 then s.ptpLatch else s.rcClear a
  | 0x4016 => if serIsData off then s.serPop off else s
  | 0x4017 => if off = 0x28 ∧ core then s.off F.DBG_CHAN_STATUS_D2CFULL
              else if off = 0x14 ∧ !s.dbgRegOk then s.on F.DBG_STATUS_ACCERR else s
  | _ => s.rcClear a

/-- A read of the register at `a` by master `m`; a debug read peeks unless SIDEFX = 1 (R5, R368). -/
def State.regRead (s : State) (m : Master) (a : Nat) : Word × State :=
  (s.regValue a, if m == .debug && !s.flag F.DBG_CTRL_SIDEFX then s else s.regSide (m == .core) a)

/-- The register map is there for master `m` at address `a`: a word of a listed block, and not the DBG block for the PCIe
host (R7, R329). -/
def regReach (m : Master) (a : Nat) : Bool := inBlock a && a % 4 == 0 && !(m == .pcie && inDbg a)

/-- A word read as a command of its own: the data, or a refusal. -/
def State.readReg (s : State) (m : Master) (a : Nat) : State :=
  if !s.pclkOn then s
  else if regReach m a then (s.regRead m a).2.answer (s.regRead m a).1
  else s.refuse

end Sys2Proof.Machine
end

