-- ==== Sys2Proof/Machine/RegWrite.lean ====
section
/-! DEFINITION. A write to a register by a master (R2 to R8, R329, R359): one dispatch to the blocks' own writes; the
register lists of the image and of a profile (R68, R74); and the rows that are a write or a read of one register. -/

namespace Sys2Proof.Machine

/-- A write to the DBG block that is not made through DBGACC: only CHAN_C2D and the W1C bits of CHAN_STATUS (R359, R377). -/
def State.dbgCoreWrite (s : State) (off : Nat) (v : Word) : State :=
  match off with
  | 0x2C =>
    let full := s.flag F.DBG_CHAN_STATUS_C2DFULL
    ((s.wr R.DBG_CHAN_C2D v).on F.DBG_CHAN_STATUS_C2DFULL).iff full fun s => s.on F.DBG_CHAN_STATUS_C2DOVR
  | 0x30 => s.maskWrite R.DBG_CHAN_STATUS v
  | _ => s

/-- The requester code of ARRAY_ERR_INFO for a master, with the state after drawing it; R54 gives the PCIe host none. -/
def State.arrayReq (s : State) : Master → Nat × State
  | .core => (0, s)
  | .dma => (1, s)
  | .debug => (2, s)
  | .pcie => (Config.pick s.freeCtr % 5, s.draw)

/-- The write of `v` to the register at address `a`, which stands in a listed block (R8). -/
def State.regWrite (s : State) (m : Master) (a : Nat) (v : Word) : State :=
  let off := a % 0x10000
  match a / 0x10000 with
  | 0x4000 => s.sysWrite off v
  | 0x4001 => s.cfgWrite off v
  | 0x4002 => (s.arrayReq m).2.arrayWrite (s.arrayReq m).1 off v
  | 0x4003 => s.storeWrite off v
  | 0x4005 => s.blitWrite off v
  | 0x4006 => s.dmaWrite off v
  | 0x4007 => s.camWrite off v
  | 0x4008 => s.audWrite off v
  | 0x4009 => s.icuWrite off v
  | 0x400A => s.timWrite off v
  | 0x400B => s.wdtWrite off v
  | 0x400C => s.adcWrite off v
  | 0x400D => (s.pcieWrite off v).iff (m == .pcie && a == R.PCIE_H2D) fun s => s.on F.PCIE_STATUS_H2D
  | 0x400E => s.ethWrite 0 off v
  | 0x400F => s.ethWrite 1 off v
  | 0x4010 => s.headWrite 0 off v
  | 0x4011 => s.headWrite 1 off v
  | 0x4012 => s.headWrite 2 off v
  | 0x4013 => s.headWrite 3 off v
  | 0x4014 => s.prgWrite off v
  | 0x4015 => s.pinWrite off v
  | 0x4016 => s.serWrite off v
  | 0x4017 => s.dbgCoreWrite off v
  | _ => s

/-- A word write as a command of its own: done, or refused. A refusal that the writer of the last command saw is over. -/
def State.writeReg (s : State) (m : Master) (a : Nat) (v : Word) : State :=
  if !s.pclkOn then s
  else if regReach m a then { s with resp := .none }.regWrite m a v
  else s.refuse

/-! ### Register lists (R68, R74, R154, R185) -/

/-- One (address, value) entry of a HEAD_SETUP, AUDIO_SETUP, PIN_SETUP, profile or refuge list, written by the sequencer. -/
def State.listWrite (s : State) (a : Nat) (v : Word) : State :=
  match a / 0x10000 with
  | 0x4010 => s.headListWrite 0 (a % 0x10000) v
  | 0x4011 => s.headListWrite 1 (a % 0x10000) v
  | 0x4012 => s.headListWrite 2 (a % 0x10000) v
  | 0x4013 => s.headListWrite 3 (a % 0x10000) v
  | 0x4008 => s.audWrite (a % 0x10000) v
  | 0x4015 => s.pinWrite (a % 0x10000) v
  | 0x4016 => s.serWrite (a % 0x10000) v
  | _ => s

def State.listWrites (s : State) (l : List (Word × Word)) : State := l.foldl (fun t e => t.listWrite e.1.toNat e.2) s

/-! ### The rows -/

/-- A write to a register that has no row of its own (R5); a register that has one acts as that row says. -/
def execRegisterWrite (m : Master) (a v : Word) (s : State) : Out := .next <| s.writeReg m a.toNat v

/-- An RC register after the events of `coinc` (R6): its halves that are counters count them up, saturating, and its flags are set. -/
def rcAfter (rc : Nat) (old coinc : Word) : Word :=
  let half := fun lo =>
    let m := bitsOf (w32 rc) lo 16
    let o := bitsOf old lo 16
    let c := bitsOf coinc lo 16
    if m = 0xFFFF then min 0xFFFF (o + c) else o ||| (c &&& m)
  w32 (half 16 * 65536 + half 0)

/-- A read of an RC field (R6): the value before the events of the same clock, which are counted from zero after a read that clears,
and on top of the field's value after a debug read that only peeks. -/
def execRcRead (m : Master) (a coinc : Word) (s : State) : Out := .next <|
  let t := s.readReg m a.toNat
  match regRow a.toNat with
  | some r =>
    if s.pclkOn && regReach m a.toNat then t.wr a.toNat (rcAfter r.rc (t.rd a.toNat) coinc) else t
  | none => t

/-- A doorbell at the face of unit u (R26), through its face slot; the debug port reaches a unit without one by its unit ID (R25), and
ARRAY_ERR_ADDR then holds that ID, as for a doorbell of the dispatcher (log 128). -/
def execFaceDoorbell (m : Master) (u : UnitId) (v : Word) (s : State) : Out := .next <|
  match (s.unit? u.toNat).bind (·.slot) with
  | some sl => s.writeReg m (0x40028010 + 0x20 * sl) v
  | none =>
    if m = .debug && s.pclkOn && (s.unit? u.toNat).isSome then
      { s with resp := .none }.faceWrite u.toNat 4 v 2 u.toNat .outside
    else s

/-- PARK of a root unit (R49). -/
def execUnitPark (m : Master) (u : UnitId) (s : State) : Out := .next <|
  s.writeReg m R.ARRAY_UNIT_CMD (0x10000000 ||| u.setWidth 32)

/-- RESTART of a root unit (R49). -/
def execUnitRestart (m : Master) (u : UnitId) (s : State) : Out := .next <|
  s.writeReg m R.ARRAY_UNIT_CMD (0x20000000 ||| u.setWidth 32)

/-- ARRAY_DISP_h (R54). -/
def execLeadWrite (m : Master) (h : Head) (v : Word) (s : State) : Out := .next <| s.writeReg m (R.ARRAY_DISP h) v

/-- CFG_PROFILE (R74). -/
def execProfileSwitchRequest (m : Master) (v : Word) (s : State) : Out := .next <| s.writeReg m R.CFG_PROFILE v

/-- L_FLIP (R150, R151, R153). -/
def execLayerFlip (m : Master) (h : Head) (l : LayerNo) (v : Word) (s : State) : Out := .next <|
  s.writeReg m (R.HEAD_L_FLIP h l) v

/-- FENCE_SIG (R151). -/
def execFenceSig (m : Master) (h : Head) (v : Word) (s : State) : Out := .next <| s.writeReg m (R.HEAD_FENCE_SIG h) v

/-- A timing register: 0 HTIM_A, 1 HTIM_B, 2 VTIM_A, 3 VTIM_B (R161, R171). -/
def execTimingWrite (m : Master) (h : Head) (r : BitVec 2) (v : Word) (s : State) : Out := .next <|
  s.writeReg m (R.HEAD_HTIM_A h + 4 * r.toNat) v

/-- PLL_A or PLL_B (R162). -/
def execPllWrite (m : Master) (h : Head) (b : Bool) (v : Word) (s : State) : Out := .next <|
  s.writeReg m (if b then R.HEAD_PLL_B h else R.HEAD_PLL_A h) v

/-- BL_CTRL (R174). -/
def execBeamListArm (m : Master) (h : Head) (v : Word) (s : State) : Out := .next <| s.writeReg m (R.HEAD_BL_CTRL h) v

end Sys2Proof.Machine
end

