-- ==== Sys2Proof/Machine/Bus.lean ====
section
/-! DEFINITION. The address maps: where an access of the control core, a DMA channel or the debug port (R7, R10, R21, R22,
R118, R262, R349, R368) or of a span engine (R9) goes, apart from making it, because the stack check of R100 only asks; the
store-to-line (R14, R32, R33, R37); then loads and stores of the executing contexts (R86, R98, R230). -/

namespace Sys2Proof.Machine

/-- Where an access goes. -/
inductive Where where
  /-- a memory, at this key -/
  | mem (key : Nat)
  /-- a register of the map -/
  | reg (a : Nat)
  /-- word i of the face of unit u, the own face or the parent's -/
  | face (u i : Nat) (own : Bool)
  /-- a face that is not there: reads zero, writes are ignored -/
  | noFace
  /-- pixel x of the line-ring window -/
  | ring (x : Nat)
  /-- held until a hand-over ends -/
  | held
  /-- refused with ECAUSE.SUB, and the KIND and ENGINE that ARRAY_ERR_INFO records, KIND 0 for none -/
  | refused (sub kind engine : Nat)
  deriving DecidableEq, Repr

def Where.isRefused : Where → Bool
  | .refused .. => true
  | _ => false

def Acc.where : Acc → Where
  | .ok k => .mem k
  | .bus sub => .refused sub 0 0
  | .held _ => .held

/-! ### The control-core map -/

/-- An erg window; `loader` says that the accessor may reach instruction memory (R22). KIND 3 concerns no engine, and what
ENGINE then holds is a free value. -/
def State.ergWhere (s : State) (loader : Bool) (a : Nat) : Where :=
  let n := (a - 0x20000000) / 0x100000
  let o := a % 0x100000
  if o < 0x80000 then .mem a
  else if o < 0xC0000 then
    let p := 64 * n + (o - 0x80000) / 0x1000
    if (s.physEngine p).parked then .mem a else .refused 1 1 (s.logicalOf p)
  else if o < 0xC2000 then
    let p := s.imSelected n
    let x := s.physEngine p
    if loader && (x.parked || x.actHalf != decide (0xC1000 ≤ o)) then .mem (imemKey p + (o - 0xC0000))
    else .refused 1 2 (s.logicalOf p)
  else .refused 1 3 (Config.pick s.freeCtr % 1024)

/-- A Store access by a master of the control-core map: the debug port reads through the observer port and writes any bank
but a locked one (R234, R368); the others use the owner port. -/
def State.storeWhere (s : State) (m : Master) (a : Nat) (wr : Bool) : Where :=
  match m with
  | .debug =>
    if !s.bankOn (bankOf a) then .refused 1 0 0
    else if wr && s.flag (F.STORE_OWNER_LOCK (bankOf a)) then .refused 2 0 0
    else .mem a
  | .core => (s.ownerPort 0x10 a).where
  | .dma => (s.ownerPort 0x11 a).where
  | .pcie => (s.ownerPort 0x16 a).where

/-- The map of R7 for master m: n bytes at a, naturally aligned. -/
def State.mapWhere (s : State) (m : Master) (a n : Nat) (wr : Bool) : Where :=
  if a < 0x10000 then (if wr then .refused 1 0 0 else .mem a)
  else if 0x100000 ≤ a ∧ a < 0x160000 then .mem a
  else if 0x180000 ≤ a ∧ a < 0x190000 then
    if m == .core && decide (4 ≤ n) && decide (a + n ≤ 0x180078) then .reg (0x40150000 + (a - 0x180000))
    else .refused 1 0 0
  else if inStore a then s.storeWhere m a wr
  else if 0x20000000 ≤ a ∧ a < 0x21000000 then
    s.ergWhere (m != .core || decide (s.cc.pc.toNat < 0x10000)) a
  else if 0x30000000 ≤ a ∧ a < 0x30180000 then
    if m == .debug || (m == .core && (!wr || s.modeNow == 1)) then .mem a else .refused 1 0 0
  else if 0x40000000 ≤ a ∧ a < 0x80000000 then
    if inBlock a && n % 4 == 0 && (n == 4 || m == .core) then .reg a else .refused 1 0 0
  else if s.inDram a n then .mem a
  else .refused 1 0 0

/-- Cycles of a control-core access (R86, R393): 2 where no region stands. R86 gives boot ROM data and the line store no time of
their own; they take those of the nearest kind. -/
def State.ccCycles (s : State) (a : Nat) (wr : Bool) : Nat :=
  if a < 0x10000 ∨ 0x100000 ≤ a ∧ a < 0x160000 ∨ 0x180000 ≤ a ∧ a < 0x190000 then 1
  else if inStore a then 8
  else if 0x20000000 ≤ a ∧ a < 0x21000000 then 10
  else if 0x30000000 ≤ a ∧ a < 0x30180000 then 8
  else if 0x40000000 ≤ a ∧ a < 0x40180000 then (if wr then 6 else 8)
  else if s.inDram a 1 then 60
  else 2

/-! ### The span-engine map (R9) -/

/-- Store requester of an engine: its erg (R228). -/
def State.ergOf (s : State) (e : Nat) : Nat := s.physOf e / 64

def State.engWhere (s : State) (e a n : Nat) : Where :=
  let p := s.physOf e
  if a < 0x1000 then .mem (privKey p + a)
  else if 0x10000 ≤ a ∧ a < 0x20000 then .mem (ridgeKey p + (a - 0x10000))
  else if 0x20000 ≤ a ∧ a < 0x20040 then
    if n ≠ 4 then .refused 1 0 0
    else match s.unitOfEngine e with
      | none => .noFace
      | some u =>
        if a < 0x20020 then .face u (a % 0x20 / 4) true
        else match s.unit? u with
          | some x => if x.parent = 0 then .noFace else .face x.parent (a % 0x20 / 4) false
          | none => .noFace
  else if inStore a then (s.ownerPort (s.ergOf e) a).where
  else if 0x30000000 ≤ a ∧ a < 0x30002800 then (if n = 4 then .ring ((a - 0x30000000) / 4) else .refused 1 0 0)
  else if s.inDram a n then .mem a
  else .refused 1 0 0

/-- Cycles of a span-engine access (R86, R393). -/
def State.engCycles (s : State) (e a : Nat) : Nat :=
  if a < 0x1000 then 1
  else if 0x10000 ≤ a ∧ a < 0x20040 then 2
  else if inStore a then (if bankOf a = s.ergOf e then 6 else 14)
  else if 0x30000000 ≤ a ∧ a < 0x30002800 then 1
  else if s.inDram a 1 then 120
  else 2

/-! ### Both kinds of context -/

/-- A control-core access at user level to what R118 closes. -/
def userClosed (x : CoreSt) (a : Nat) : Bool := !x.priv && decide (0x20000000 ≤ a ∧ a < 0x80000000)

/-- Where an access of context c goes. -/
def State.whereOf (s : State) (c : Ctx) (a n : Nat) (wr : Bool) : Where :=
  match c with
  | .cc => if userClosed s.cc a then .refused 3 0 0 else s.mapWhere .core a n wr
  | .se e => s.engWhere e.val a n

/-- Its cycles. -/
def State.accCycles (s : State) (c : Ctx) (a : Nat) (wr : Bool) : Nat :=
  match c with
  | .cc => if userClosed s.cc a then 2 else s.ccCycles a wr
  | .se e => s.engCycles e.val a

/-- Record a refusal: of ownership in STORE_ACC_ERR by requester code `req`, of the array in ARRAY_ERR_INFO by `areq`. -/
def State.noteWhere (s : State) (req areq a : Nat) (wr : Bool) : Where → State
  | .refused 2 _ _ => s.noteOwner req a wr
  | .refused _ 0 _ => s
  | .refused _ kind e => (s.arrayErr areq kind e a).draw
  | _ => s

/-! ### Store-to-line (R14, R32, R37) -/

/-- A child on the way up from unit u is not the writing child of its BROADCAST caravan (R32). -/
def State.notWriter (s : State) (u : Nat) : Bool :=
  (s.ancestry u).any fun v =>
    match s.unit? v with
    | some x => match s.unit? x.parent with
      | some p => x.parent != 0 && p.policy == 3 && x.childIndex != p.writerChild
      | none => false
    | none => false

/-- What becomes of the pixels of a store-to-line. -/
inductive LinePut where
  /-- discarded without CLIP (R32, R39) -/
  | drop
  /-- discarded with CLIP (R37) -/
  | clip
  /-- the slot is not free (R14) -/
  | stall
  /-- judged pixel by pixel against this task -/
  | go (t : Task)
  deriving DecidableEq, Repr

/-- A store-to-line of engine e. Its slot is judged before any x is held against the task's range, so that a store wholly outside
[X0, X1) stalls like any other while the slot is not free: the spec gives no order (log 80), and which task may use a slot is the
model's reading (log 112). -/
def State.linePut (s : State) (e : Nat) : LinePut :=
  match s.unitOfEngine e with
  | none => .clip
  | some u =>
    if s.notWriter u then .drop
    else match (s.unit? u).bind (·.queue.head?) with
      | none => .clip
      | some t =>
        if t.discard then .drop
        else if !t.isLine then .clip
        else if s.slotFree t then .go t else .stall

/-- Write pixels from x on into the slot of task t; those outside its range are discarded (R37). -/
def State.putLine (s : State) (t : Task) : Nat → List Word → State
  | _, [] => s
  | x, w :: ws =>
    (if t.x0 ≤ x ∧ x < t.x1 then s.putWord (ringKey t.headNo t.ring t.slot x) w else s.on F.ARRAY_STATUS_CLIP).putLine t
      (x + 1) ws

/-- A store-to-line of pixels from x on: none says that it stalls. -/
def State.storeLine (s : State) (e x : Nat) (ws : List Word) : Option State :=
  match s.linePut e with
  | .drop => some s
  | .clip => some (s.on F.ARRAY_STATUS_CLIP)
  | .stall => none
  | .go t => some (s.putLine t x ws)

/-- An engine is in a stage j > 0 of a PIPE caravan (R33). -/
def State.laterStage (s : State) (u : Nat) : Bool :=
  (s.ancestry u).any fun v =>
    match s.unit? v with
    | some x => match s.unit? x.parent with
      | some p => x.parent != 0 && p.policy == 4 && x.childIndex != 0
      | none => false
    | none => false

/-- Where a read of the ring window by engine e finds pixel x, if it does (R33). A stage whose oldest task is no line task, or whose
queue is empty, names no slot and reads zero: the model's choice (log 114). -/
def State.ringSource (s : State) (e x : Nat) : Option Nat :=
  match s.unitOfEngine e with
  | none => none
  | some u =>
    match (s.unit? u).bind (·.queue.head?) with
    | some t => if s.laterStage u && t.isLine then some (ringKey t.headNo t.ring t.slot x) else none
    | none => none

/-! ### Faces in the engine's views (R25 to R27) -/

/-- A read of the own face. -/
def State.ownFace (s : State) (u i : Nat) : Word :=
  match s.unit? u with
  | none => 0
  | some x =>
    match i, x.queue.head? with
    | 0, some t => t.mb0
    | 1, some t => t.mb1
    | 2, some t => t.mb2
    | 3, some t => t.mb3
    | 5, _ => s.faceStatus u x
    | 6, _ => x.fault
    | _, _ => 0

/-- A write through an engine's view: its own face takes a completion, its parent's what an outside writer may do. -/
def State.engFaceWrite (s : State) (e u i : Nat) (own : Bool) (v : Word) : State :=
  if own then (if i = 7 then s.completeTask u v else s) else s.faceWrite u i v 4 e .outside

/-! ### Loads and stores of a context -/

/-- What a load brings. -/
inductive Got where
  | data (bs : List Byte)
  /-- an uncorrectable error -/
  | bad
  | refused (sub : Nat)
  | held
  deriving DecidableEq, Repr

/-- Requester codes of a context: of Store (R228) and of ARRAY_ERR_INFO (R54). -/
def State.areqOf : Ctx → Nat
  | .cc => 0
  | .se _ => 4

/-- Read n bytes from a memory as context c. -/
def State.memGot (s : State) (c : Ctx) (a k n : Nat) : Got × State :=
  let r := s.readAs (readerOf c) a k n
  if r.1.2 = .uncorr then (.bad, r.2) else (.data r.1.1, r.2)

/-- Read n / 4 registers, the lowest address first. -/
def State.regGot (s : State) (m : Master) (a : Nat) : Nat → List Byte × State
  | 0 => ([], s)
  | n + 1 =>
    let r := s.regRead m a
    let q := r.2.regGot m (a + 4) n
    (leBytes 4 r.1.toNat ++ q.1, q.2)

/-- Write registers, the lowest address first. -/
def State.regPut (s : State) (m : Master) (a : Nat) : List Byte → State
  | b0 :: b1 :: b2 :: b3 :: bs => (s.regWrite m a (w32 (leNat [b0, b1, b2, b3]))).regPut m (a + 4) bs
  | _ => s

/-- A load of n bytes at a by context c (R86, R98). -/
def State.load (s : State) (c : Ctx) (a n : Nat) : Got × State :=
  match s.whereOf c a n false with
  | .mem k => s.memGot c a k n
  | .reg r => (.data (s.regGot .core r (n / 4)).1, (s.regGot .core r (n / 4)).2)
  | .face u i true => (.data (leBytes 4 (s.ownFace u i).toNat), s)
  | .face u i false => (.data (leBytes 4 (s.faceRead u i).toNat), s)
  | .noFace => (.data [0, 0, 0, 0], s)
  | .ring x =>
    match c with
    | .se e => match s.ringSource e.val x with
      | some k => s.memGot c a k n
      | none => (.data [0, 0, 0, 0], s)
    | .cc => (.refused 1, s)
  | .held => (.held, s)
  | .refused sub kind e => (.refused sub, s.noteWhere (s.reqOf c) (State.areqOf c) a false (.refused sub kind e))

/-- What a store meets. -/
inductive Put where
  | done
  | refused (sub : Nat)
  | held
  deriving DecidableEq, Repr

/-- A store of bytes at a by context c. A store reads no memory and meets no error (R98). -/
def State.storeAt (s : State) (c : Ctx) (a : Nat) (bs : List Byte) : Put × State :=
  match s.whereOf c a bs.length true with
  | .mem k => (.done, s.storeBytes k bs)
  | .reg r => (.done, s.regPut .core r bs)
  | .face u i own =>
    match c with
    | .se e => (.done, s.engFaceWrite e.val u i own (w32 (leNat bs)))
    | .cc => (.done, s)
  | .noFace => (.done, s)
  | .ring x =>
    match c with
    | .se e => match s.storeLine e.val x [w32 (leNat bs)] with
      | some s => (.done, s)
      | none => (.held, s)
    | .cc => (.refused 1, s)
  | .held => (.held, s)
  | .refused sub kind e => (.refused sub, s.noteWhere (s.reqOf c) (State.areqOf c) a true (.refused sub kind e))

/-- The context waits inside instruction i: for its slot (R14) or for a hand-over (R230). -/
def State.hold (s : State) (c : Ctx) (i : Instr) : State := s.modCore c fun x => { x with stalled := some i }

/-- A word access that would be refused now (R100); nothing is accessed or recorded. -/
def State.wordRefused (s : State) (c : Ctx) (a : Nat) (wr : Bool) : Bool :=
  decide (a % 4 ≠ 0) || (s.whereOf c a 4 wr).isRefused

/-- The comparators' view of a completed load (1) or store (2), after which the context may halt (R370). -/
def State.watch (s : State) (kind : Nat) (c : Ctx) (a : Nat) (bs : List Byte) : State :=
  match s.compare kind c a bs with
  | (some k, s) => s.eventHalt c 3 k
  | (none, s) => s

/-! ### One access by another master of the map (R262, R329, R368) -/

/-- A read of n bytes by master m as reader code `reader`: the bytes and their error-control outcome, or the refusal. -/
def State.mapRead (s : State) (m : Master) (reader req areq a n : Nat) : Option (List Byte × Ecc) × State :=
  match s.mapWhere m a n false with
  | .mem k => (some (s.readAs reader a k n).1, (s.readAs reader a k n).2)
  | .reg r => (some ((s.regGot m r (n / 4)).1, .clean), (s.regGot m r (n / 4)).2)
  | .held => (none, s)
  | w => (none, s.noteWhere req areq a false w)

/-- A write of bytes by master m; false says that it was refused. -/
def State.mapWrite (s : State) (m : Master) (req areq a : Nat) (bs : List Byte) : Bool × State :=
  match s.mapWhere m a bs.length true with
  | .mem k => (true, s.storeBytes k bs)
  | .reg r => (true, s.regPut m r bs)
  | .held => (false, s)
  | w => (false, s.noteWhere req areq a true w)

end Sys2Proof.Machine
end

