-- ==== Sys2Proof/Machine/MemInsn.lean ====
section
/-! DEFINITION. Loads and stores (R97 to R99, R101), the loads of the pixel group (R109) and the store-to-line instructions
(R111). -/

namespace Sys2Proof.Machine

/-! ### The frames of a load and of a store -/

/-- Finish a load: the register effect, the next instruction, and the comparators. -/
def State.endLoad (s : State) (c : Ctx) (t cyc a : Nat) (bs : List Byte) (f : CoreSt → CoreSt) : State :=
  ((s.modCore c f).retire c t cyc).watch 1 c a bs

/-- Finish a store. -/
def State.endStore (s : State) (c : Ctx) (t cyc a : Nat) (bs : List Byte) (f : CoreSt → CoreSt) : State :=
  ((s.modCore c f).retire c t cyc).watch 2 c a bs

/-- A load of n bytes, n-aligned, at `ea`; `f` takes the bytes into the registers (R98). -/
def State.loadInsn (s : State) (c : Ctx) (i : Instr) (n : Nat) (ea : CoreSt → Word)
    (f : List Byte → CoreSt → CoreSt) : State :=
  s.issue c i fun t s =>
    let a := ea (s.core c)
    let cyc := s.accCycles c a.toNat false
    if a.toNat % n ≠ 0 then s.raise c t 1 { num := 3, acc := 2, eaddr := a }
    else match s.load c a.toNat n with
      | (.data bs, s) => s.endLoad c t cyc a.toNat bs (f bs)
      | (.bad, s) => s.raise c t cyc { num := 5, acc := 2, eaddr := a }
      | (.refused sub, s) => s.raise c t cyc { num := 6, sub := sub, acc := 2, eaddr := a }
      | (.held, s) => s.hold c i

/-- A store of the bytes `v`, aligned to their number n, at `ea` (R98). -/
def State.storeInsn (s : State) (c : Ctx) (i : Instr) (n : Nat) (ea : CoreSt → Word) (v : CoreSt → List Byte) : State :=
  s.issue c i fun t s =>
    let a := ea (s.core c)
    let bs := v (s.core c)
    let cyc := s.accCycles c a.toNat true
    if a.toNat % n ≠ 0 then s.raise c t 1 { num := 3, acc := 3, eaddr := a }
    else match s.storeAt c a.toNat bs with
      | (.done, s) => s.endStore c t cyc a.toNat bs id
      | (.refused sub, s) => s.raise c t cyc { num := 6, sub := sub, acc := 3, eaddr := a }
      | (.held, s) => s.hold c i

/-- What a load leaves in rd: zero- or sign-extended. -/
def loadZ (rd : RegNo) (bs : List Byte) (x : CoreSt) : CoreSt := x.setGr rd (w32 (leNat bs))
def loadS8 (rd : RegNo) (bs : List Byte) (x : CoreSt) : CoreSt := x.setGr rd ((BitVec.ofNat 8 (leNat bs)).signExtend 32)
def loadS16 (rd : RegNo) (bs : List Byte) (x : CoreSt) : CoreSt := x.setGr rd ((BitVec.ofNat 16 (leNat bs)).signExtend 32)
/-- LD: the word at the lower address goes to rd (R97). -/
def loadPair (rd : RegNo) (bs : List Byte) (x : CoreSt) : CoreSt :=
  (x.setGr rd (w32 (leNat (bs.take 4)))).setGr (rd + 1) (w32 (leNat (bs.drop 4)))
/-- The n low bytes of rd. -/
def low (n : Nat) (rd : RegNo) (x : CoreSt) : List Byte := leBytes n (x.gr rd).toNat

/-! ### Based loads and stores (R97) -/

/-- Load a sign-extended byte. -/
def execLb (c : Ctx) (rd rs : RegNo) (imm : BitVec 16) (s : State) : Out := .next <|
  s.loadInsn c (.lb c rd rs imm) 1 (fun x => x.eaBased rs imm) (loadS8 rd)

/-- Load a zero-extended byte. -/
def execLbu (c : Ctx) (rd rs : RegNo) (imm : BitVec 16) (s : State) : Out := .next <|
  s.loadInsn c (.lbu c rd rs imm) 1 (fun x => x.eaBased rs imm) (loadZ rd)

/-- Load a sign-extended half-word. -/
def execLh (c : Ctx) (rd rs : RegNo) (imm : BitVec 16) (s : State) : Out := .next <|
  s.loadInsn c (.lh c rd rs imm) 2 (fun x => x.eaBased rs imm) (loadS16 rd)

/-- Load a zero-extended half-word. -/
def execLhu (c : Ctx) (rd rs : RegNo) (imm : BitVec 16) (s : State) : Out := .next <|
  s.loadInsn c (.lhu c rd rs imm) 2 (fun x => x.eaBased rs imm) (loadZ rd)

/-- Load a word. -/
def execLw (c : Ctx) (rd rs : RegNo) (imm : BitVec 16) (s : State) : Out := .next <|
  s.loadInsn c (.lw c rd rs imm) 4 (fun x => x.eaBased rs imm) (loadZ rd)

/-- Load a double word into rd and rd + 1; LD into g0 writes only g1. -/
def execLd (c : Ctx) (rd rs : RegNo) (imm : BitVec 16) (s : State) : Out := .next <|
  s.loadInsn c (.ld c rd rs imm) 8 (fun x => x.eaBased rs imm) (loadPair rd)

/-- Store the low byte of rd. -/
def execSb (c : Ctx) (rd rs : RegNo) (imm : BitVec 16) (s : State) : Out := .next <|
  s.storeInsn c (.sb c rd rs imm) 1 (fun x => x.eaBased rs imm) (low 1 rd)

/-- Store the low half-word of rd. -/
def execSh (c : Ctx) (rd rs : RegNo) (imm : BitVec 16) (s : State) : Out := .next <|
  s.storeInsn c (.sh c rd rs imm) 2 (fun x => x.eaBased rs imm) (low 2 rd)

/-- Store rd; in the span engines' ring window as STL does, no register advancing (R111). -/
def execSw (c : Ctx) (rd rs : RegNo) (imm : BitVec 16) (s : State) : Out := .next <|
  s.storeInsn c (.sw c rd rs imm) 4 (fun x => x.eaBased rs imm) (low 4 rd)

/-- Store the pair rd and rd + 1. -/
def execSd (c : Ctx) (rd rs : RegNo) (imm : BitVec 16) (s : State) : Out := .next <|
  s.storeInsn c (.sd c rd rs imm) 8 (fun x => x.eaBased rs imm) fun x => low 4 rd x ++ low 4 (rd + 1) x

/-! ### Short absolute and SP-relative forms (R97, R99) -/

/-- Load a zero-extended byte at BNK × 65,536 + a16. -/
def execLbua (c : Ctx) (rd : RegNo) (a16 : BitVec 16) (s : State) : Out := .next <|
  s.loadInsn c (.lbua c rd a16) 1 (fun x => x.eaShort a16) (loadZ rd)

/-- Load a zero-extended half-word there. -/
def execLhua (c : Ctx) (rd : RegNo) (a16 : BitVec 16) (s : State) : Out := .next <|
  s.loadInsn c (.lhua c rd a16) 2 (fun x => x.eaShort a16) (loadZ rd)

/-- Load a word there. -/
def execLwa (c : Ctx) (rd : RegNo) (a16 : BitVec 16) (s : State) : Out := .next <|
  s.loadInsn c (.lwa c rd a16) 4 (fun x => x.eaShort a16) (loadZ rd)

/-- Store the low byte there. -/
def execSba (c : Ctx) (rd : RegNo) (a16 : BitVec 16) (s : State) : Out := .next <|
  s.storeInsn c (.sba c rd a16) 1 (fun x => x.eaShort a16) (low 1 rd)

/-- Store the low half-word there. -/
def execSha (c : Ctx) (rd : RegNo) (a16 : BitVec 16) (s : State) : Out := .next <|
  s.storeInsn c (.sha c rd a16) 2 (fun x => x.eaShort a16) (low 2 rd)

/-- Store the word there. -/
def execSwa (c : Ctx) (rd : RegNo) (a16 : BitVec 16) (s : State) : Out := .next <|
  s.storeInsn c (.swa c rd a16) 4 (fun x => x.eaShort a16) (low 4 rd)

/-- Load a word at SP + imm16. -/
def execLwsp (c : Ctx) (rd : RegNo) (imm : BitVec 16) (s : State) : Out := .next <|
  s.loadInsn c (.lwsp c rd imm) 4 (fun x => x.eaSp imm) (loadZ rd)

/-- Store a word at SP + imm16. -/
def execSwsp (c : Ctx) (rd : RegNo) (imm : BitVec 16) (s : State) : Out := .next <|
  s.storeInsn c (.swsp c rd imm) 4 (fun x => x.eaSp imm) (low 4 rd)

/-! ### Locked sequences (R101) -/

/-- The refusal of LL or SC at an address outside ridge memory, Store and control-core data memory, by its SUB; and the
memory key of the word elsewhere. -/
def State.lockKey (s : State) (c : Ctx) (a : Nat) : Nat ⊕ Nat :=
  match c with
  | .cc =>
    if userClosed s.cc a then .inl 3
    else if (0x140000 ≤ a ∧ a < 0x160000) ∨ inStore a
        ∨ (0x20000000 ≤ a ∧ a < 0x21000000 ∧ a % 0x100000 < 0x80000) then .inr a else .inl 1
  | .se e =>
    if 0x10000 ≤ a ∧ a < 0x20000 then .inr (ridgeKey (s.physOf e.val) + (a - 0x10000))
    else if inStore a then .inr a else .inl 1

/-- Load a word and set the reservation on it. -/
def execLl (c : Ctx) (rd rs : RegNo) (imm : BitVec 16) (s : State) : Out := .next <|
  s.issue c (.ll c rd rs imm) fun t s =>
    let a := (s.core c).eaBased rs imm
    let cyc := s.accCycles c a.toNat false
    if a.toNat % 4 ≠ 0 then s.raise c t 1 { num := 3, acc := 2, eaddr := a }
    else match s.lockKey c a.toNat with
      | .inl sub => s.raise c t cyc { num := 6, sub := sub, acc := 2, eaddr := a }
      | .inr k =>
        match s.load c a.toNat 4 with
        | (.data bs, s) => s.endLoad c t cyc a.toNat bs fun x => { loadZ rd bs x with resv := some k }
        | (.bad, s) => s.raise c t cyc { num := 5, acc := 2, eaddr := a }
        | (.refused sub, s) => s.raise c t cyc { num := 6, sub := sub, acc := 2, eaddr := a }
        | (.held, s) => s.hold c (.ll c rd rs imm)

/-- Store conditionally: 1 in rd if the reservation stood for the word, else 0; the reservation is cleared. An SC that makes no store
takes the time of one that does: R86 and R101 state none for it (DESIGN CHOICE, log 118). -/
def execSc (c : Ctx) (rd rs : RegNo) (imm : BitVec 16) (s : State) : Out := .next <|
  s.issue c (.sc c rd rs imm) fun t s =>
    let a := (s.core c).eaBased rs imm
    let bs := low 4 rd (s.core c)
    let cyc := s.accCycles c a.toNat true
    if a.toNat % 4 ≠ 0 then s.raise c t 1 { num := 3, acc := 3, eaddr := a }
    else match s.lockKey c a.toNat with
      | .inl sub => s.raise c t cyc { num := 6, sub := sub, acc := 3, eaddr := a }
      | .inr k =>
        if (s.core c).resv = some k then
          match s.storeAt c a.toNat bs with
          | (.done, s) => s.endStore c t cyc a.toNat bs fun x => { x.setGr rd 1 with resv := none }
          | (.refused sub, s) =>
            (s.modCore c fun x => { x with resv := none }).raise c t cyc { num := 6, sub := sub, acc := 3, eaddr := a }
          | (.held, s) => s.hold c (.sc c rd rs imm)
        else (s.modCore c fun x => { x.setGr rd 0 with resv := none }).retire c t cyc

/-! ### Pixel loads (R109) -/

/-- The palette word at rt + 4 × byte k of rs. -/
def execPalK (c : Ctx) (k : BitVec 2) (rd rs rt : RegNo) (s : State) : Out := .next <|
  s.loadInsn c (.palK c k rd rs rt) 4 (fun x => x.gr rt + w32 (4 * bitsOf (x.gr rs) (8 * k.toNat) 8)) (loadZ rd)

/-- Registers rd to rd + 7 from 32 bytes. -/
def loadEight (rd : RegNo) (bs : List Byte) (x : CoreSt) : CoreSt :=
  (List.range 8).foldl (fun y j => y.setGr (rd + BitVec.ofNat 5 j) (w32 (leNat ((bs.drop (4 * j)).take 4)))) x

/-- Eight words at rs, which must be a multiple of 32; an uncorrectable word writes no register. -/
def execTfetch (c : Ctx) (rd rs : RegNo) (s : State) : Out := .next <|
  s.loadInsn c (.tfetch c rd rs) 32 (fun x => x.gr rs) (loadEight rd)

/-! ### Store-to-line (R111) -/

/-- The n pixels rs to rs + n − 1 from x = rt[15:0] on; rt advances by n whatever becomes of them. -/
def State.lineInsn (s : State) (c : Ctx) (i : Instr) (n : Nat) (rs rt : RegNo) : State :=
  s.issue c i fun t s =>
    match c with
    | .cc => s.raise c t 1 { num := 1 }
    | .se e =>
      let x := s.core c
      let col := bitsOf (x.gr rt) 0 16
      let ws := (List.range n).map fun j => x.gr (rs + BitVec.ofNat 5 j)
      match s.storeLine e.val col ws with
      | none => s.hold c i
      | some s => s.endStore c t 1 (0x30000000 + 4 * col) (ws.flatMap fun w => leBytes 4 w.toNat) fun x =>
          x.setGr rt (x.gr rt + w32 n)

/-- One pixel. -/
def execStl (c : Ctx) (rs rt : RegNo) (s : State) : Out := .next <| s.lineInsn c (.stl c rs rt) 1 rs rt

/-- Eight pixels, each judged on its own (R37). -/
def execStl8 (c : Ctx) (rs rt : RegNo) (s : State) : Out := .next <| s.lineInsn c (.stl8 c rs rt) 8 rs rt

end Sys2Proof.Machine
end

