-- ==== Sys2Proof/Machine/Stack.lean ====
section
/-! DEFINITION. Stacks and the transfers that use them (R100, R103): full-descending, the address checked before any access,
the pointer moved only when the instruction completes. -/

namespace Sys2Proof.Machine

/-- The pointer of the return stack: RSP in split mode (R100). -/
def CoreSt.retPtr (x : CoreSt) : Word := if x.split then x.rsp else x.sp
def CoreSt.setRetPtr (x : CoreSt) (v : Word) : CoreSt := if x.split then { x with rsp := v } else { x with sp := v }

/-- Push word v at pointer `p` − 4; `done` finishes the instruction, given the new pointer and the cycles of the access. -/
def State.pushAt (s : State) (c : Ctx) (i : Instr) (t : Nat) (p v : Word) (done : Word → Nat → State → State) : State :=
  let a := p - 4
  if a.toNat % 4 ≠ 0 then s.raise c t 1 { num := 7, sub := 1, acc := 4, eaddr := a }
  else if s.wordRefused c a.toNat true then s.raise c t 1 { num := 7, sub := 2, acc := 4, eaddr := a }
  else
    let bs := leBytes 4 v.toNat
    match s.storeAt c a.toNat bs with
    | (.done, s') => (done a (s.accCycles c a.toNat true) s').watch 2 c a.toNat bs
    | (_, s') => s'.hold c i

/-- Pop the word at pointer `p`; `done` finishes the instruction, given the word and the cycles of the access. -/
def State.popAt (s : State) (c : Ctx) (i : Instr) (t : Nat) (p : Word) (done : Word → Nat → State → State) : State :=
  if p.toNat % 4 ≠ 0 then s.raise c t 1 { num := 7, sub := 1, acc := 5, eaddr := p }
  else if s.wordRefused c p.toNat false then s.raise c t 1 { num := 7, sub := 2, acc := 5, eaddr := p }
  else
    let cyc := s.accCycles c p.toNat false
    match s.load c p.toNat 4 with
    | (.data bs, s') => (done (w32 (leNat bs)) cyc s').watch 1 c p.toNat bs
    | (.bad, s') => s'.raise c t cyc { num := 5, acc := 5, eaddr := p }
    | (_, s') => s'.hold c i

/-- Push rs onto the SP stack. -/
def execPush (c : Ctx) (rs : RegNo) (s : State) : Out := .next <|
  s.issue c (.push c rs) fun t s =>
    let x := s.core c
    s.pushAt c (.push c rs) t x.sp (x.gr rs) fun a cyc s =>
      (s.modCore c fun x => { x with sp := a }).retire c t (1 + cyc)

/-- Pop from the SP stack into rd. -/
def execPop (c : Ctx) (rd : RegNo) (s : State) : Out := .next <|
  s.issue c (.pop c rd) fun t s =>
    let p := (s.core c).sp
    s.popAt c (.pop c rd) t p fun w cyc s =>
      (s.modCore c fun x => { x with sp := p + 4 }.setGr rd w).retire c t (1 + cyc)

/-- Push the return address and jump (R103); the stack access beyond its first cycle adds to the jump's (R88). -/
def execCall (c : Ctx) (off : BitVec 26) (s : State) : Out := .next <|
  s.issue c (.call c off) fun t s =>
    let x := s.core c
    s.pushAt c (.call c off) t x.retPtr (x.pc + 4) fun a cyc s =>
      (s.modCore c fun x => x.setRetPtr a).transfer c t (jumpCycles c x + cyc - 1) (jumpTarget x.pc off)

/-- Push the return address and jump to rs; a misaligned target is found before any access (R103, R126). -/
def execCallr (c : Ctx) (rs : RegNo) (s : State) : Out := .next <|
  s.issue c (.callr c rs) fun t s =>
    let x := s.core c
    let w := x.gr rs
    if bitsOf w 0 2 ≠ 0 then s.raise c t 1 { num := 3, acc := 7, eaddr := w }
    else s.pushAt c (.callr c rs) t x.retPtr (x.pc + 4) fun a cyc s =>
      (s.modCore c fun x => x.setRetPtr a).transfer c t (regJumpCycles c x + cyc - 1) w

/-- Pop the return address and jump to it; a misaligned one leaves the pointer as it was (R103). -/
def execRet (c : Ctx) (s : State) : Out := .next <|
  s.issue c (.ret c) fun t s =>
    let x := s.core c
    s.popAt c (.ret c) t x.retPtr fun w cyc s =>
      if bitsOf w 0 2 ≠ 0 then s.raise c t 1 { num := 3, acc := 7, eaddr := w }
      else (s.modCore c fun x => x.setRetPtr (x.retPtr + 4)).transfer c t (regJumpCycles c x + cyc - 1) w

end Sys2Proof.Machine
end

