-- ==== Sys2Proof/Machine/SysInsn.lean ====
section
/-! DEFINITION. The special group beyond the transfers (R112 to R114, R125, R128, R131), COMPLETE and the completion it makes
(R27), and the exceptions that belong to a fetch (R47, R83, R85). -/

namespace Sys2Proof.Machine

/-- What an instruction does that needs privilege on the control core: exception 2 at user level (R118). -/
def State.privileged (s : State) (c : Ctx) (t : Nat) (need : Bool) (f : State → State) : State :=
  if need && isCc c && !(s.core c).priv then s.raise c t 1 { num := 2 } else f s

/-- Exception 10, or a halt into the debugger (R112, R364). -/
def execBrk (c : Ctx) (s : State) : Out := .next <|
  s.issue c (.brk c) fun t s =>
    if s.flag F.DBG_CTRL_BRKHALT && s.flag F.DBG_CTRL_ATTACH then s.eventHalt c 2 0
    else s.raise c t 1 { num := 10 }

/-- There is something to do: a queued task for an engine (R40), a pending enabled source for the control core (R114). -/
def State.hasWork (s : State) : Ctx → Bool
  | .cc => s.candidate.isSome
  | .se e => match (s.unitOfEngine e.val).bind s.unit? with
    | some x => !x.queue.isEmpty
    | none => false

/-- Sleep until there is work; with work waiting, one cycle. Sleeping clears the reservation (R101). -/
def execWait (c : Ctx) (s : State) : Out := .next <|
  s.issue c (.wait c) fun t s =>
    s.privileged c t true fun s =>
      let s' := s.retire c t 1
      if s.hasWork c then s' else s'.modCore c fun x => { x with asleep := true, resv := none }

/-- SYSCALL (R112, R131): no memory is accessed; IE keeps its value; the reservation is cleared (R101). -/
def execSyscall (c : Ctx) (s : State) : Out := .next <|
  s.issue c (.syscall c) fun t s =>
    (s.modCore c fun x =>
      { x.swapSp with spc := x.pc + 4, sstat := x.status, status := (x.status ||| 2) &&& ~~~(0x800 : Word),
                      resv := none }).transfer c t 3 (s.core c).sysent

/-- SYSRET (R112, R131). -/
def execSysret (c : Ctx) (s : State) : Out := .next <|
  s.issue c (.sysret c) fun t s =>
    s.privileged c t true fun s =>
      (s.modCore c fun x => { x.swapSp with status := x.sstat, resv := none }).transfer c t 3 (s.core c).spc

/-- ERET (R125). -/
def execEret (c : Ctx) (s : State) : Out := .next <|
  s.issue c (.eret c) fun t s =>
    s.privileged c t true fun s =>
      (s.modCore c fun x => x.exReturn c).transfer c t (if isCc c then 3 else 2) (s.core c).epc

/-- rd = special register sr (R80, R113); at user level CTXID can be read. -/
def execMfs (c : Ctx) (rd sr : RegNo) (s : State) : Out := .next <|
  s.issue c (.mfs c rd sr) fun t s =>
    s.privileged c t (srPriv sr.toNat) fun s =>
      let v := s.srRead (s.core c) sr.toNat t
      (s.modCore c fun x => x.setGr rd v).retire c t 1

/-- Special register sr = rs, from the next instruction on (R113, R128). The loop-end check of the MTS itself uses a written
loop register (R105), and the LPE that stood when it issued. -/
def execMts (c : Ctx) (sr rs : RegNo) (s : State) : Out := .next <|
  s.issue c (.mts c sr rs) fun t s =>
    s.privileged c t (srPriv sr.toNat || sr == 23) fun s =>
      s.modCore c fun x => (x.srWrite c sr.toNat (x.gr rs)).retireAs (bitOf x.status stLPE) (t + s.perOf c)

/-- The write to FACE_COMPLETE of the own face by engine e (R27). -/
def State.completeOwn (s : State) (e : Nat) (v : Word) : State :=
  match s.unitOfEngine e with
  | some u => s.completeTask u v
  | none => s

/-- COMPLETE (R112): rs to the own FACE_COMPLETE, 2 cycles. -/
def execComplete (c : Ctx) (rs : RegNo) (s : State) : Out := .next <|
  s.issue c (.complete c rs) fun t s =>
    match c with
    | .cc => s.raise c t 1 { num := 1 }
    | .se e => (s.completeOwn e.val ((s.core c).gr rs)).retire c t 2

/-- The completion itself, as an event at the own face (R27). -/
def execFaceComplete (e : EngineNo) (v : Word) (s : State) : Out := .next <| s.completeOwn e.val v

/-- A word that decodes to no instruction raises exception 1 (R83); a word that does decode is no illegal instruction, and the
event then changes nothing. -/
def execIllegalInstruction (c : Ctx) (w : Word) (s : State) : Out := .next <|
  if (decodeInsn c w).isNone then s.issueWord c w false fun _ s => s else s

/-- Memory key of the instruction at `pc` (R84, R85). -/
def State.fetchKey (s : State) (c : Ctx) (pc : Word) : Nat :=
  match c with
  | .cc => pc.toNat
  | .se e => imemKey (s.physOf e.val) + 0x1000 * ((pc.toNat / 0x1000 % 2 + (s.engine e.val).actHalf.toNat) % 2)
      + pc.toNat % 0x1000

/-- The word that the next fetch of context c executes: the lowest patch unit's on the control core while a debugger is
attached (R359, R369), else memory's. -/
def State.fetchWord (s : State) (c : Ctx) : Word :=
  let pc := (s.core c).pc
  let w := w32 (leNat (s.eccBytes (s.fetchKey c pc) 4).1)
  match c with
  | .se _ => w
  | .cc =>
    let hit := fun i =>
      s.flag F.DBG_CTRL_ATTACH && s.flag (F.DBG_PATCH_ADDR_EN i) && (s.rd (R.DBG_PATCH_ADDR i)) >>> 2 == pc >>> 2
    match (List.range 8).find? hit with
    | some i => s.rd (R.DBG_PATCH_DATA i)
    | none => w

/-- An uncorrectable fetch: the error is counted, and exception 4 is raised when the instruction would execute (R47). -/
def execUncorrectableFetch (c : Ctx) (s : State) : Out := .next <|
  s.issueWord c (s.fetchWord c) true fun t s =>
    let pc := (s.core c).pc
    (s.noteEcc (readerOf c) (s.fetchKey c pc) pc.toNat .uncorr).raise c t 1 { num := 4, acc := 1, eaddr := pc }

/-- The fetch at a PC outside the instruction space: exception 6 when it would execute (R85). With PC inside, nothing. -/
def execFetchOutsideInstructionSpace (c : Ctx) (s : State) : Out := .next <|
  if fetchable c (s.core c).pc then s else s.issueWord c 0 true fun _ s => s

end Sys2Proof.Machine
end

