-- ==== Sys2Proof/Machine/Insn.lean ====
section
/-! DEFINITION. One instruction by its syntax: the debugger's STEP (R361) and the end of a wait inside an instruction (R14,
R230) run it through the same meanings as the instruction's own row. -/

namespace Sys2Proof.Machine

/-- The state an outcome goes on with. -/
def outState (s : State) : Out → State
  | .next t => t
  | _ => s

/-- Run an instruction; a command that is no instruction changes nothing. -/
def State.runInsn (s : State) (i : Instr) : State :=
  match i with
  | .or c rd rs rt y => outState s (execOr c rd rs rt y s)
  | .and c rd rs rt y => outState s (execAnd c rd rs rt y s)
  | .xor c rd rs rt y => outState s (execXor c rd rs rt y s)
  | .andn c rd rs rt y => outState s (execAndn c rd rs rt y s)
  | .add c rd rs rt y => outState s (execAdd c rd rs rt y s)
  | .sub c rd rs rt y => outState s (execSub c rd rs rt y s)
  | .adc c rd rs rt y => outState s (execAdc c rd rs rt y s)
  | .sbc c rd rs rt y => outState s (execSbc c rd rs rt y s)
  | .neg c rd rs y => outState s (execNeg c rd rs y s)
  | .abs c rd rs y => outState s (execAbs c rd rs y s)
  | .slt c rd rs rt y => outState s (execSlt c rd rs rt y s)
  | .sltu c rd rs rt y => outState s (execSltu c rd rs rt y s)
  | .min c rd rs rt y => outState s (execMin c rd rs rt y s)
  | .max c rd rs rt y => outState s (execMax c rd rs rt y s)
  | .minu c rd rs rt y => outState s (execMinu c rd rs rt y s)
  | .maxu c rd rs rt y => outState s (execMaxu c rd rs rt y s)
  | .sll c rd rs rt y => outState s (execSll c rd rs rt y s)
  | .srl c rd rs rt y => outState s (execSrl c rd rs rt y s)
  | .sra c rd rs rt y => outState s (execSra c rd rs rt y s)
  | .ror c rd rs rt y => outState s (execRor c rd rs rt y s)
  | .slli c rd rs amt y => outState s (execSlli c rd rs amt y s)
  | .srli c rd rs amt y => outState s (execSrli c rd rs amt y s)
  | .srai c rd rs amt y => outState s (execSrai c rd rs amt y s)
  | .rori c rd rs amt y => outState s (execRori c rd rs amt y s)
  | .clz c rd rs y => outState s (execClz c rd rs y s)
  | .sextb c rd rs y => outState s (execSextb c rd rs y s)
  | .sexth c rd rs y => outState s (execSexth c rd rs y s)
  | .bext c rd rs rt y => outState s (execBext c rd rs rt y s)
  | .mul c rs rt => outState s (execMul c rs rt s)
  | .mulu c rs rt => outState s (execMulu c rs rt s)
  | .mac c rs rt => outState s (execMac c rs rt s)
  | .macu c rs rt => outState s (execMacu c rs rt s)
  | .div c rs rt => outState s (execDiv c rs rt s)
  | .divu c rs rt => outState s (execDivu c rs rt s)
  | .addi c rd rs imm => outState s (execAddi c rd rs imm s)
  | .andi c rd rs imm => outState s (execAndi c rd rs imm s)
  | .ori c rd rs imm => outState s (execOri c rd rs imm s)
  | .xori c rd rs imm => outState s (execXori c rd rs imm s)
  | .lui c rd imm => outState s (execLui c rd imm s)
  | .slti c rd rs imm => outState s (execSlti c rd rs imm s)
  | .sltiu c rd rs imm => outState s (execSltiu c rd rs imm s)
  | .addis c rd rs imm => outState s (execAddis c rd rs imm s)
  | .beq c rs rt off => outState s (execBeq c rs rt off s)
  | .bne c rs rt off => outState s (execBne c rs rt off s)
  | .blt c rs rt off => outState s (execBlt c rs rt off s)
  | .bge c rs rt off => outState s (execBge c rs rt off s)
  | .bltu c rs rt off => outState s (execBltu c rs rt off s)
  | .bgeu c rs rt off => outState s (execBgeu c rs rt off s)
  | .bf c cond off => outState s (execBf c cond off s)
  | .j c off => outState s (execJ c off s)
  | .call c off => outState s (execCall c off s)
  | .loop c rs n d => outState s (execLoop c rs n d s)
  | .loopi c n cnt d => outState s (execLoopi c n cnt d s)
  | .lb c rd rs imm => outState s (execLb c rd rs imm s)
  | .lbu c rd rs imm => outState s (execLbu c rd rs imm s)
  | .lh c rd rs imm => outState s (execLh c rd rs imm s)
  | .lhu c rd rs imm => outState s (execLhu c rd rs imm s)
  | .lw c rd rs imm => outState s (execLw c rd rs imm s)
  | .ld c rd rs imm => outState s (execLd c rd rs imm s)
  | .ll c rd rs imm => outState s (execLl c rd rs imm s)
  | .sb c rd rs imm => outState s (execSb c rd rs imm s)
  | .sh c rd rs imm => outState s (execSh c rd rs imm s)
  | .sw c rd rs imm => outState s (execSw c rd rs imm s)
  | .sd c rd rs imm => outState s (execSd c rd rs imm s)
  | .sc c rd rs imm => outState s (execSc c rd rs imm s)
  | .lbua c rd a16 => outState s (execLbua c rd a16 s)
  | .lhua c rd a16 => outState s (execLhua c rd a16 s)
  | .lwa c rd a16 => outState s (execLwa c rd a16 s)
  | .sba c rd a16 => outState s (execSba c rd a16 s)
  | .sha c rd a16 => outState s (execSha c rd a16 s)
  | .swa c rd a16 => outState s (execSwa c rd a16 s)
  | .lwsp c rd imm => outState s (execLwsp c rd imm s)
  | .swsp c rd imm => outState s (execSwsp c rd imm s)
  | .adjsp c imm => outState s (execAdjsp c imm s)
  | .paddub c rd rs rt => outState s (execPaddub c rd rs rt s)
  | .psubub c rd rs rt => outState s (execPsubub c rd rs rt s)
  | .paddh c rd rs rt => outState s (execPaddh c rd rs rt s)
  | .psubh c rd rs rt => outState s (execPsubh c rd rs rt s)
  | .pmulh c rd rs rt => outState s (execPmulh c rd rs rt s)
  | .packub c rd rs rt => outState s (execPackub c rd rs rt s)
  | .mula c rd rs rt => outState s (execMula c rd rs rt s)
  | .cov c rd rs rt => outState s (execCov c rd rs rt s)
  | .blend c rd rs rt => outState s (execBlend c rd rs rt s)
  | .blendp c rd rs rt => outState s (execBlendp c rd rs rt s)
  | .palK c k rd rs rt => outState s (execPalK c k rd rs rt s)
  | .rsqe c rd rs => outState s (execRsqe c rd rs s)
  | .rsqs c rd rs rt => outState s (execRsqs c rd rs rt s)
  | .tfetch c rd rs => outState s (execTfetch c rd rs s)
  | .stl c rs rt => outState s (execStl c rs rt s)
  | .stl8 c rs rt => outState s (execStl8 c rs rt s)
  | .brk c => outState s (execBrk c s)
  | .wait c => outState s (execWait c s)
  | .syscall c => outState s (execSyscall c s)
  | .sysret c => outState s (execSysret c s)
  | .eret c => outState s (execEret c s)
  | .barp c => outState s (execBarp c s)
  | .mfs c rd sr => outState s (execMfs c rd sr s)
  | .mts c sr rs => outState s (execMts c sr rs s)
  | .jr c rs => outState s (execJr c rs s)
  | .callr c rs => outState s (execCallr c rs s)
  | .ret c => outState s (execRet c s)
  | .push c rs => outState s (execPush c rs s)
  | .pop c rd => outState s (execPop c rd s)
  | .complete c rs => outState s (execComplete c rs s)
  | _ => s

/-- A context held inside an instruction goes on with it: what held it may have ended. A halt asked for meanwhile still waits
for the boundary after it (R362), and a PARK too (R49). -/
def State.replay (s : State) (c : Ctx) : State :=
  let x := s.core c
  match x.stalled with
  | none => s
  | some i =>
    if x.halted || x.parked || !s.clocked c then s
    else
      let s := (s.modCore c fun y => { y with stalled := none, haltReq := none, skipCmp := some y.pc }).runInsn i
      let s := s.modCore c fun y => { y with haltReq := if y.halted then none else x.haltReq }
      match c with
      | .se e => if (s.engine e.val).parkReq && (s.engine e.val).stalled.isNone then s.cmdPark e.val else s
      | .cc => s

/-- Every context held inside an instruction tries again. -/
def State.replayAll (s : State) : State :=
  (s.eng.map (·.1)).foldl (fun t e => t.replay (.se (Fin.ofNat 1024 e))) (s.replay .cc)

end Sys2Proof.Machine
end

