-- ==== Sys2Proof/Machine/Image.lean ====
section
/-! DEFINITION. The Bybel image (R58 to R71): reading a slot, the checks in their order with the reasons of R73, the section
formats, and what streaming writes. -/

namespace Sys2Proof.Machine

/-! ### Bytes and words -/

/-- The entries of a table for keys k, k + 1, … -/
def tabSlice {α : Type} (d : Nat → α) : Nat → Tab α → Nat → List α
  | 0, _, _ => []
  | n + 1, t, k =>
    match t.dropWhile fun x => decide (x.1 < k) with
    | (j, a) :: r => if j = k then a :: tabSlice d n r (k + 1) else d k :: tabSlice d n ((j, a) :: r) (k + 1)
    | [] => d k :: tabSlice d n [] (k + 1)

/-- Whole words of a byte string. -/
def wordsOf : List Byte → List Word
  | b0 :: b1 :: b2 :: b3 :: bs => w32 (leNat [b0, b1, b2, b3]) :: wordsOf bs
  | _ => []

/-- Word at byte offset `off` (any alignment). -/
def wordAt (bs : List Byte) (off : Nat) : Word := w32 (leNat ((bs.drop off).take 4))

def allZero (bs : List Byte) : Bool := bs.all (· == 0)

/-- Flash slot s (0 A, 1 B): `n` bytes from `off` (R58). An erased byte reads 0xFF. -/
def State.slotBytes (s : State) (slot off n : Nat) : List Byte :=
  tabSlice (dflt (0xFF : Byte)) n s.flash (slot * 0x1000000 + off)

/-! ### Header and section table (R61, R62) -/

/-- The header fields the loader uses. -/
structure Hdr where
  len : Nat
  nsect : Nat
  flags : Nat
  table : Nat
  defProf : Nat
  split : Nat
  dram : Nat
  cache : Nat
  id : Word
  build : Word
  deriving DecidableEq, Repr

def readHdr (b : List Byte) : Hdr :=
  let h := fun i => leNat ((b.drop i).take 2)
  let y := fun i => (b.getD i 0).toNat
  { len := (wordAt b 8).toNat, nsect := h 0xC, flags := h 0xE, table := (wordAt b 0x10).toNat, defProf := y 0x14,
    split := y 0x15, dram := y 0x16, cache := (wordAt b 0x18).toNat, id := wordAt b 0x1C, build := wordAt b 0x20 }

def Hdr.auth (h : Hdr) : Bool := natBit h.flags 0
def Hdr.usesDram (h : Hdr) : Bool := natBit h.flags 1
/-- DRAM bytes that the image uses (R61). -/
def Hdr.dramBytes (h : Hdr) : Nat :=
  if !h.usesDram then 0 else match h.dram with | 1 => 0x20000000 | 2 => 0x40000000 | 3 => 0x80000000 | _ => 0
/-- Bytes of the trailer (R64). -/
def Hdr.trailer (h : Hdr) : Nat := if h.auth then 132 else 4

/-- MAGIC, FMT_MAJOR and HDR_CRC in their order (R65); 0 when all three pass. -/
def headerReason (b : List Byte) : Nat :=
  if wordAt b 0 ≠ 0x4C425942 then 2
  else if leNat ((b.drop 6).take 2) ≠ 1 then 3
  else if crc32c (b.take 0x2C) ≠ wordAt b 0x2C then 4
  else 0

/-- One entry of the section table (R62). -/
structure Sect where
  type : Nat
  index : Nat
  off : Nat
  len : Nat
  crc : Word
  deriving DecidableEq, Repr

def readSects : List Word → List Sect
  | w0 :: w1 :: w2 :: w3 :: ws =>
    { type := bitsOf w0 0 16, index := bitsOf w0 16 16, off := w1.toNat, len := w2.toNat, crc := w3 } :: readSects ws
  | _ => []

/-- An image as read: its bytes, header and table. -/
structure Img where
  raw : List Byte
  hdr : Hdr
  sects : List Sect
  deriving DecidableEq, Repr

def Img.bytes (m : Img) (e : Sect) : List Byte := (m.raw.drop e.off).take e.len
def Img.find (m : Img) (t i : Nat) : Option Sect := m.sects.find? fun e => e.type == t && e.index == i
def Img.sectWords (m : Img) (t i : Nat) : Option (List Word) := (m.find t i).map fun e => wordsOf (m.bytes e)

/-- The lengths of R64: IMAGE_LEN, and the room for header, table and trailer. -/
def Hdr.lengthsOk (h : Hdr) : Bool :=
  decide (h.len ≤ 0x1000000 ∧ h.len % 4 = 0 ∧ max 256 (h.table + 16 * h.nsect) + h.trailer ≤ h.len)

/-- The image of a slot whose header passes and whose lengths and extents are right. -/
def State.slotImg (s : State) (slot : Nat) : Nat ⊕ Img :=
  let hb := s.slotBytes slot 0 256
  match headerReason hb with
  | 0 =>
    let h := readHdr hb
    if !h.lengthsOk then .inl 5
    else
      let raw := s.slotBytes slot 0 h.len
      let sects := readSects (wordsOf ((raw.drop h.table).take (16 * h.nsect)))
      if sects.any fun e => decide (h.len < e.off + e.len + h.trailer) then .inl 5
      else .inr { raw := raw, hdr := h, sects := sects }
  | r => .inl r

/-! ### Check word, sections, authentication (R64 to R67) -/

def Img.crcOk (m : Img) : Bool := crc32 (m.raw.take (m.hdr.len - 4)) == wordAt m.raw (m.hdr.len - 4)
def Img.sectionsOk (m : Img) : Bool := m.sects.all fun e => crc32c (m.bytes e) == e.crc

/-- R66. -/
def Img.sigOk (m : Img) (f : FuseSt) : Bool :=
  let pub := (m.raw.drop (m.hdr.len - 132)).take 64
  let sig := (m.raw.drop (m.hdr.len - 68)).take 64
  sha256 pub == f.hash && ecdsaVerify pub (sha256 (m.raw.take (m.hdr.len - 68))) sig

/-- R67: whether the image may load, and whether it was verified. -/
def Img.authOk (m : Img) (f : FuseSt) : Bool × Bool :=
  if !f.keyv then (true, false)
  else if m.hdr.auth then (m.sigOk f, m.sigOk f)
  else (!f.authreq, false)

/-! ### Register lists (R68) -/

def pairs : List Word → List (Word × Word)
  | a :: v :: ws => (a, v) :: pairs ws
  | _ => []

/-- The register at a is one that a write acts on: it stores bits, clears bits, or acts by being written. -/
def acceptsWrite (a : Nat) : Bool :=
  let off := a % 0x10000
  let head := decide (0x40100000 ≤ a ∧ a < 0x40140000)
  (match regRow a with
    | some r => decide (r.rw ≠ 0) || decide (r.w1c ≠ 0)
    | none => false)
  || (head && (decide (off = 0x10 ∨ off = 0x518 ∨ 0x8000 ≤ off) || decide (0x100 ≤ off ∧ off < 0x300 ∧ off % 0x40 = 0x30)))
  || (decide (a / 0x10000 = 0x4015) && [8, 0xC, 0x10].contains (off % 0x20) && decide (off < 0x80))
  || (decide (a / 0x10000 = 0x4016) && serIsData off)

def blockOf (a : Word) : Nat := a.toNat / 0x10000

/-- A register list whose targets lie in the allowed blocks, are writes the registers accept, and are few enough. -/
def listOk (blocks : List Nat) (l : List (Word × Word)) : Bool :=
  l.all (fun e => e.1.toNat % 4 == 0 && blocks.contains (blockOf e.1) && acceptsWrite e.1.toNat)
    && heads4.all (fun h => decide ((l.filter fun e => blockOf e.1 == 0x4010 + h).length ≤ 256))
    && decide ((l.filter fun e => blockOf e.1 == 0x4008 || blockOf e.1 == 0x4015 || blockOf e.1 == 0x4016).length ≤ 256)

/-- A section that is one register list. -/
def listSectOk (blocks : List Nat) (ws : List Word) : Bool := ws.length % 2 == 0 && listOk blocks (pairs ws)

/-! ### Load records (R68) -/

/-- The records of a byte string: destination and data; none where they are malformed. -/
def loadRecords : Nat → List Byte → Option (List (Nat × List Byte))
  | _, [] => some []
  | 0, _ => none
  | n + 1, bs =>
    let d := (wordAt bs 0).toNat
    let k := (wordAt bs 4).toNat
    if bs.length < 8 ∨ k % 4 ≠ 0 ∨ bs.length < 8 + k then none
    else (loadRecords n (bs.drop (8 + k))).map fun r => (d, (bs.drop 8).take k) :: r

def within (lo n d k : Nat) : Bool := decide (lo ≤ d ∧ d + k ≤ lo + n)
/-- Destinations of CC_CODE. -/
def ccDest (d k : Nat) : Bool := within 0x100000 0x40000 d k || within 0x140000 0x20000 d k
/-- Destinations of STORE_INIT. -/
def siDest (dram d k : Nat) : Bool :=
  within 0x10000000 0x800000 d k
    || (decide (0x20000000 ≤ d ∧ d < 0x21000000) && within (d / 0x100000 * 0x100000) 0x80000 d k)
    || within 0x80000000 dram d k

/-! ### The unit tree (R69) -/

/-- A unit record; none where a field breaks a rule that concerns the record alone. That a
caravan's STACKMODE, FAULT_MODE and ENTRY are zero is DEDUCED from "leaf only"; a leaf's RESULT_CHILD is not constrained. -/
def unitRecord : List Word → Option (Nat × UnitSt)
  | [w0, w1, w2, w3, w4, w5, w6, w7] =>
    let id := bitsOf w0 0 12
    let pol := bitsOf w1 29 3
    let n := bitsOf w1 16 7
    let res := bitsOf w1 8 6
    let wc := bitsOf w1 0 6
    let eng := bitsOf w2 0 10
    let zeros := bitsOf w0 24 8 = 0 ∧ bitsOf w1 23 6 = 0 ∧ bitsOf w1 14 2 = 0 ∧ bitsOf w1 6 2 = 0 ∧ bitsOf w2 26 5 = 0 ∧
      bitsOf w2 10 6 = 0 ∧ bitsOf w4 6 10 = 0 ∧ bitsOf w5 2 30 = 0 ∧ bitsOf w6 11 21 = 0 ∧ w7 = 0
    let shape := if pol = 0 then n = 0 else 1 ≤ n ∧ n ≤ 64 ∧ res < n ∧ eng = 0 ∧ w5 = 0 ∧ w6 = 0
    let writer := if pol = 3 then wc < n else wc = 0
    if 1 ≤ id ∧ pol ≤ 4 ∧ zeros ∧ shape ∧ writer then
      some (id, { parent := bitsOf w0 12 12, policy := pol, nchild := n, resultChild := res, writerChild := wc,
                  slot := if bitOf w2 31 then some (bitsOf w2 16 10) else none, engine := eng, x0 := bitsOf w3 0 16,
                  x1 := bitsOf w3 16 16, use := bitsOf w4 16 16, childIndex := bitsOf w4 0 6, split := bitOf w5 1,
                  faultPark := bitOf w5 0, entry := bitsOf w6 0 11 })
    else none
  | _ => none

def unitRecords : Nat → List Word → Option (List (Nat × UnitSt))
  | 0, [] => some []
  | 0, _ => none
  | n + 1, ws => match unitRecord (ws.take 8), unitRecords n (ws.drop 8) with
    | some u, some us => some (u :: us)
    | _, _ => none

abbrev Tree := List (Nat × UnitSt)
def Tree.find (t : Tree) (u : Nat) : Option UnitSt := (t.find? fun x => x.1 == u).map (·.2)

/-- The chain of parents from u ends at a root. -/
def Tree.rooted (t : Tree) : Nat → Nat → Bool
  | 0, _ => false
  | n + 1, u => match t.find u with
    | some x => x.parent == 0 || t.rooted n x.parent
    | none => false

def distinct (l : List Nat) : Bool := decide l.Nodup

/-- The children of one caravan: as many as it says, indices 0 to NCHILD − 1 once each, and under SPLIT_X ranges in order
that do not overlap. -/
def childrenOk (p : UnitSt) (cs : List UnitSt) : Bool :=
  cs.length == p.nchild && distinct (cs.map (·.childIndex)) && cs.all (fun c => decide (c.childIndex < p.nchild))
    && cs.all (fun c => c.use == p.use)
    && (if p.policy = 1 then
          cs.all (fun c => decide (c.x0 ≤ c.x1)) &&
          (let rs := cs.filter fun c => decide (c.x0 < c.x1)
           (List.range rs.length).all fun i => (List.range i).all fun j =>
             match rs[i]?, rs[j]? with
             | some a, some b => decide (a.x1 ≤ b.x0 ∨ b.x1 ≤ a.x0)
             | _, _ => true)
        else cs.all fun c => c.x0 == 0 && c.x1 == 0)

/-- The constraints of R23 and R69 on the whole tree, and R51's on its engines. -/
def Tree.ok (t : Tree) (spares : List Nat) : Bool :=
  let leaves := t.filter fun x => x.2.policy == 0
  decide ((t.map (·.1)).Pairwise (· < ·)) && decide (leaves.length ≤ 1024)
    && distinct (leaves.map (·.2.engine)) && leaves.all (fun x => !spares.contains x.2.engine)
    && distinct (t.filterMap (·.2.slot))
    && t.all (fun x => if x.2.parent = 0 then x.2.x0 == 0 && x.2.x1 == 0
                       else match t.find x.2.parent with
                         | some p => p.policy != 0 && t.rooted (t.length + 1) x.1
                         | none => false)
    && t.all (fun x => x.2.policy == 0 || childrenOk x.2 ((t.filter fun y => y.2.parent == x.1).map (·.2)))

def readTree (ws : List Word) : Option Tree :=
  match ws with
  | n :: ws => if 1 ≤ n.toNat ∧ n.toNat ≤ 4095 ∧ ws.length = 8 * n.toNat then unitRecords n.toNat ws else none
  | [] => none

/-! ### Programs, spares, profiles (R51, R68, R71) -/

def readProgram (ws : List Word) : Option (List Word) :=
  match ws with
  | n :: ws => if 1 ≤ n.toNat ∧ n.toNat ≤ 2048 ∧ ws.length = n.toNat then some ws else none
  | [] => none

def readSpares (ws : List Word) : Option (List Nat) :=
  match ws with
  | n :: ws => if n.toNat ≤ 64 ∧ ws.length = n.toNat then some (ws.map fun w => bitsOf w 0 10) else none
  | [] => none

/-- A PROFILE section, with the sizes of the programs that it binds; none where its layout is wrong. Beyond the table of R71 three
points are the model's choice (log 116): bits [31:16] of word 1, which the table does not list, must be zero; a lead must lie in 1 to 8
only for a head that the variant enables; and a root entry with ACTION = 3, which ARRAY_ROOT_n does not define, is refused. -/
def readVariant (lean : Bool) (progLen : Nat → Option Nat) (ws : List Word) : Option Variant :=
  match ws with
  | w0 :: w1 :: w2 :: w3 :: ws =>
    let heads := bitsOf w0 0 4
    let nb := bitsOf w2 16 16
    let nr := bitsOf w2 0 5
    let lead := fun h => bitsOf w1 (4 * h) 4
    let roots := (ws.take nr).map fun w => (4 * bitsOf w 19 2 + bitsOf w 21 2, w &&& ~~~(0x00780000 : Word))
    let bw := (ws.drop nr).take nb
    let binds := bw.map fun w =>
      { unit := bitsOf w 0 12, head := bitsOf w 30 2, program := bitsOf w 12 12, half := bitOf w 29,
        full := match progLen (bitsOf w 12 12) with | some n => decide (1024 < n) | none => false : Bind }
    let blocks := (heads4.filter fun h => natBit heads h).map (0x4010 + ·) ++ [0x4008, 0x4015]
    let regs := pairs (ws.drop (nr + nb))
    if bitsOf w0 20 12 = 0 ∧ bitsOf w0 12 4 = 0 ∧ bitsOf w0 4 4 = 0 ∧ bitsOf w1 16 16 = 0 ∧ bitsOf w2 5 11 = 0 ∧ nb ≤ 1024
        ∧ nr ≤ 16 ∧ ws.length = nr + nb + 2 * w3.toNat ∧ (lean ∨ bitsOf w0 8 4 = 0)
        ∧ heads4.all (fun h => !natBit heads h || decide (1 ≤ lead h ∧ lead h ≤ 8))
        ∧ (ws.take nr).all (fun w => bitOf w 31 && decide (w &&& 0x7C80F000 = 0 ∧ bitsOf w 24 2 ≤ 2))
        ∧ bw.all (fun w => decide (bitsOf w 24 5 = 0) && (progLen (bitsOf w 12 12)).isSome)
        ∧ listOk blocks regs then
      some { reload := bitsOf w0 16 4, halfref := bitsOf w0 8 4, heads := heads, leads := heads4.map lead, roots := roots,
             binds := binds, regs := regs }
    else none
  | _ => none

/-- The checks of a variant against the tree (R69 ENTRY, R71). Two root entries may name one root unit: no check forbids it, and
each dispatcher then rings it, while the lowest entry counts as its head and ring (the model's choice, log 113). -/
def Variant.ok (v : Variant) (t : Tree) (p : Nat) (lean : Bool) : Bool :=
  distinct (v.binds.map (·.unit))
    && v.binds.all (fun b => match t.find b.unit with
        | some x => x.policy == 0 && State.usedIn x p lean && decide (x.entry < (if b.full then 2048 else 1024))
        | none => false)
    && t.all (fun x => !(x.2.policy == 0 && State.usedIn x.2 p lean) || v.binds.any fun b => b.unit == x.1)
    && v.roots.all (fun r => match t.find (bitsOf r.2 0 12) with
        | some x => x.parent == 0
        | none => false)
    && distinct (v.roots.map (·.1))
    && distinct (v.roots.map fun r => r.1 / 4 * 8 + bitsOf r.2 16 3)

/-! ### Refuge, setup and STORE_INIT sections -/

/-- A REFUGE section: the surface, its pixels, the register list. -/
def readRefuge (h : Nat) (bs : List Byte) : Option (RefugeDesc × List Byte) :=
  let n := (wordAt bs 16).toNat
  let px := bs.length - 20 - 8 * n
  let size := wordAt bs 4
  let regs := pairs (wordsOf (bs.drop (20 + px)))
  if 20 + 8 * n ≤ bs.length ∧ (wordAt bs 8).toNat ≤ 3 ∧ listOk [0x4010 + h] regs then
    some ({ dest := wordAt bs 0, width := bitsOf size 0 16, height := bitsOf size 16 16, fmt := (wordAt bs 8).toNat,
            stride := (wordAt bs 12).toNat, regs := regs }, (bs.drop 20).take px)
  else none

/-- R233. -/
def ownerWordOk (w : Word) : Bool :=
  decide (w &&& 0xBFFFFFC0 = 0) && ownerCodeOk (bitsOf w 0 6) && (!bitOf w 30 || bitsOf w 0 6 == 0x3F)

/-- The pixels lie in one bank that its OWNER word locks. -/
def refugeDestOk (owners : List Word) (d n : Nat) : Bool :=
  inStore d && bitOf (owners.getD (bankOf d) 0) 30 && within (bankBase (bankOf d)) 0x80000 d n

/-! ### The structure checks of step 8 -/

/-- A section type and index that R63 lists. -/
def indexOk (t i : Nat) : Bool :=
  match t with
  | 2 => decide (i < 4096)
  | 5 | 9 => decide (i < 4)
  | 8 => decide (i < 8 ∨ 0x100 ≤ i ∧ i < 0x108)
  | _ => i == 0

def isTable (t : Nat) : Bool := [1, 2, 5, 6, 7, 8, 10].contains t

def Img.progLen (m : Img) (p : Nat) : Option Nat := ((m.sectWords 2 p).bind readProgram).map (·.length)
def Img.variant (m : Img) (p : Nat) (lean : Bool) : Option Variant :=
  (m.sectWords 8 (if lean then 0x100 + p else p)).bind (readVariant lean m.progLen)
def Img.tree (m : Img) : Option Tree := (m.sectWords 1 0).bind readTree
def Img.spares (m : Img) : List Nat := ((m.sectWords 10 0).bind readSpares).getD []
def Img.owners (m : Img) : List Word := ((m.sectWords 4 0).getD []).take 16
def Img.refuge (m : Img) (h : Nat) : Option (RefugeDesc × List Byte) := (m.find 9 h).bind fun e => readRefuge h (m.bytes e)
/-- Heads that any profile enables. -/
def Img.enabled (m : Img) : List Nat :=
  heads4.filter fun h => (List.range 8).any fun p =>
    [false, true].any fun l => match m.variant p l with | some v => natBit v.heads h | none => false

/-- The header beyond R65, and R60 to R63. -/
def Img.formOk (m : Img) : Bool :=
  let h := m.hdr
  allZero ((m.raw.drop 0x17).take 1) && allZero ((m.raw.drop 0x24).take 8) && allZero ((m.raw.drop 0x30).take 0xD0)
    && decide (h.flags < 4 ∧ 1 ≤ h.nsect ∧ h.nsect ≤ 1024 ∧ h.table % 4 = 0 ∧ 0x100 ≤ h.table ∧ h.defProf ≤ 7 ∧ h.split ≤ 1
        ∧ h.dram ≤ 3)
    && (h.cache == 0 || within 0x10000000 0x800000 h.cache h.len || within 0x80000000 h.dramBytes h.cache h.len)
    && m.sects.all (fun e => decide (e.off % 4 = 0 ∧ e.len % 4 = 0 ∧ 4 ≤ e.len) &&
        (if 1 ≤ e.type ∧ e.type ≤ 10 then indexOk e.type e.index else decide (0x8000 ≤ e.type)))
    && distinct (m.sects.map fun e => e.type * 0x10000 + e.index)
    && decide (((m.sects.filter fun e => isTable e.type).map (·.len)).foldl (· + ·) 0 ≤ 1536 * 1024)

/-- One section's own format (R68, R71). -/
def Img.sectOk (m : Img) (t : Tree) (e : Sect) : Bool :=
  let bs := m.bytes e
  let ws := wordsOf bs
  match e.type with
  | 2 => (readProgram ws).isSome
  | 3 => decide (12 ≤ e.len) && within 0x100000 0x40000 (wordAt bs 0).toNat 4 && decide ((wordAt bs 0).toNat % 4 = 0) &&
         (match loadRecords e.len (bs.drop 12) with
           | some l => l.all fun r => ccDest r.1 r.2.length
           | none => false)
  | 4 => decide (64 ≤ e.len) && m.owners.all ownerWordOk &&
         (match loadRecords e.len (bs.drop 64) with
           | some l => l.all fun r => siDest m.hdr.dramBytes r.1 r.2.length
           | none => false)
  | 5 => listSectOk [0x4010 + e.index] ws
  | 6 => listSectOk [0x4008] ws
  | 7 => listSectOk [0x4015, 0x4016] ws
  | 8 => match m.variant (e.index % 8) (decide (0x100 ≤ e.index)) with
         | some v => v.ok t (e.index % 8) (decide (0x100 ≤ e.index))
         | none => false
  | 9 => match readRefuge e.index bs with
         | some r => refugeDestOk m.owners r.1.dest.toNat r.2.length
         | none => false
  | 10 => (readSpares ws).isSome
  | _ => true

/-- Step 8: everything that fails with reason STRUCTURE. -/
def Img.structureOk (m : Img) : Bool :=
  m.formOk &&
    (match m.tree with
      | some t => t.ok m.spares && m.sects.all (m.sectOk t)
      | none => false)
    && (m.find 3 0).isSome
    && (List.range 8).all (fun p =>
        !((m.find 8 p).isSome || (m.find 8 (0x100 + p)).isSome || p == m.hdr.defProf)
          || ((m.find 8 p).isSome && (m.find 8 (0x100 + p)).isSome))
    && m.enabled.all (fun h => (m.find 5 h).isSome && (m.find 9 h).isSome)

/-! ### Streaming (R56 step 6, R60) -/

/-- Store bytes from key k on, as `putRaw`; the highest is stored first. -/
def State.fill (s : State) (k : Nat) : List Byte → State
  | [] => s
  | b :: bs => (s.fill (k + 1) bs).putByte k b

/-- Write the records whose destination is allowed. -/
def State.loadAll (s : State) (ok : Nat → Nat → Bool) (l : List (Nat × List Byte)) : State :=
  l.foldl (fun t r => if ok r.1 r.2.length then t.fill r.1 r.2 else t) s

/-- What streaming writes: the table sections to the scratch area in table order, CC_CODE, STORE_INIT and refuge pixels to
their destinations, and the whole image to CACHE. -/
def State.streamSect (s : State) (m : Img) (e : Sect) : State :=
  let bs := m.bytes e
  match e.type with
  | 3 => s.loadAll ccDest ((loadRecords e.len (bs.drop 12)).getD [])
  | 4 => s.loadAll (siDest m.hdr.dramBytes) ((loadRecords e.len (bs.drop 64)).getD [])
  | 9 => match readRefuge e.index bs with
    | some r => if refugeDestOk m.owners r.1.dest.toNat r.2.length then s.fill r.1.dest.toNat r.2 else s
    | none => s
  | _ => s

/-- The scratch area from byte `k` of the line store on, as far as it reaches. -/
def State.scratch (s : State) (m : Img) : Nat → List Sect → State
  | _, [] => s
  | k, e :: es =>
    if isTable e.type then
      (if k + e.len ≤ 0x180000 then s.fill (0x30000000 + k) (m.bytes e) else s).scratch m (k + e.len) es
    else s.scratch m k es

def State.stream (s : State) (m : Img) : State :=
  let h := m.hdr
  let ok := within 0x10000000 0x800000 h.cache h.len || within 0x80000000 h.dramBytes h.cache h.len
  let s := if h.cache ≠ 0 ∧ ok then s.fill h.cache m.raw else s
  m.sects.foldl (fun t e => t.streamSect m e) (s.scratch m 0 m.sects)

/-! ### The running image (R59, R74) -/

/-- The CACHE copy can be read from byte a on: every Store bank that it touches is ON (R235). -/
def State.cacheOn (s : State) (a n : Nat) : Bool :=
  !inStore a || (List.range 16).all fun b => s.bankOn b || decide (b < bankOf a ∨ bankOf (a + n - 1) < b)

/-- A section of the running image as the sequencer reads it, from the CACHE copy or the slot, if its CRC-32C still fits. A copy
that cannot be read fits no check. -/
def State.readSection (s : State) (t i : Nat) : Option (List Word) :=
  match s.boot.sections.find? fun e => e.1 == t && e.2.1 == i with
  | some (_, _, off, len, crc) =>
    let a := s.boot.cache + off
    let bs := if s.boot.cache ≠ 0 then (s.eccBytes a len).1 else s.slotBytes s.boot.slot off len
    if (s.boot.cache = 0 || s.cacheOn a len) && (crc32c bs).toNat == crc then some (wordsOf bs) else none
  | none => none

end Sys2Proof.Machine
end

