-- ==== Sys2Proof/Machine/Profile.lean ====
section
/-! DEFINITION. The profile sequencer (R74 to R77): stage 1, the switch of a head at its boundary, reloads, completion; and
the placing of a whole variant at boot and at a resume. -/

namespace Sys2Proof.Machine

/-! ### Programs into leaves (R22, R71, R84) -/

def codeBytes (ws : List Word) : List Byte := ws.flatMap fun w => leBytes 4 w.toNat

/-- A program with its first thousand instructions in the named half and the rest in the other. -/
def State.putProgram (s : State) (p : Nat) (half : Bool) (code : List Word) : State :=
  (s.fill (imemKey p + 0x1000 * half.toNat) (codeBytes (code.take 1024))).fill (imemKey p + 0x1000 * (!half).toNat)
    (codeBytes (code.drop 1024))

/-- Place binding b whole: its HALF is the half that starts the program. -/
def State.placeBind (s : State) (b : Bind) (code : List Word) : State :=
  match s.unit? b.unit with
  | some x => (s.putProgram (s.physOf x.engine) b.half code).modEngine x.engine fun c => { c with actHalf := b.half }
  | none => s

/-- Start the leaf of a binding under R70. -/
def State.startBind (s : State) (u : Nat) : State :=
  match s.unit? u with
  | some x => if s.hasEngine x then s.startLeaf u x else s
  | none => s

/-- Park the leaf of a unit. -/
def State.parkUnit (s : State) (u : Nat) (f : CoreSt → CoreSt) : State :=
  match s.unit? u with
  | some x => s.parkEngine x.engine f
  | none => s

def State.boundOf (s : State) (u : Nat) : Option Bind := s.prof.bound.find? fun b => b.unit == u
def State.unbind (s : State) (u : Nat) : State :=
  { s with prof := { s.prof with bound := s.prof.bound.filter fun b => b.unit != u } }
def State.bind (s : State) (b : Bind) : State :=
  let s := s.unbind b.unit
  { s with prof := { s.prof with bound := b :: s.prof.bound } }

/-! ### A head's part of a variant -/

/-- ARRAY_ROOT_n of head h, and its lead (R54, R74). -/
def State.headRoots (s : State) (v : Variant) (h : Nat) : State :=
  let s := s.forEach 4 fun r s =>
    s.wr (R.ARRAY_ROOT (4 * h + r)) (match v.roots.find? fun e => e.1 == 4 * h + r with | some e => e.2 | none => 0)
  if natBit v.heads h then
    let l := v.leads.getD h 2
    (s.put (F.ARRAY_DISP_LEAD h) l).modHead h fun x => { x with leadPend := some l }
  else s

/-- What the head shows is the variant from now on. -/
def State.headVariant (s : State) (v : Variant) (lean : Bool) (h : Nat) : State :=
  let s := (s.headRoots v h).modHead h fun x => { x with leanVar := lean, halfref := natBit v.halfref h }
  { s with prof := { s.prof with heads := natSetBit s.prof.heads h (natBit v.heads h) } }

def headPart (v : Variant) (h : Nat) : List (Word × Word) := v.regs.filter fun e => blockOf e.1 == 0x4010 + h
def otherPart (v : Variant) : List (Word × Word) := v.regs.filter fun e => blockOf e.1 == 0x4008 || blockOf e.1 == 0x4015

/-- EN as the variant sets it (R68, R75). -/
def State.setEn (s : State) (h : Nat) (b : Bool) : State := s.put (F.HEAD_CTRL_EN h) b.toNat

/-! ### Completion (R75, R76, R210, R211) -/

/-- HEADSDONE of a head that has passed stage 2 and waits for no reload. -/
def State.headDone (s : State) (h : Nat) : State :=
  if !s.prof.todo.contains h && !s.prof.reload.any (fun b => b.head == h) then s.onBit F.CFG_PROFILE_STATUS_HEADSDONE h else s

/-- What a mode change that waits for the switch does when it has ended. -/
def State.modeAfterSwitch (s : State) (bad : Bool) : State :=
  match s.prof.forMode with
  | some 3 => if bad then { s with prof := { s.prof with forMode := none } }.refugeTrigger F.SYS_REFUGE_CAUSE_LEANFAIL
              else s.leanDone
  | some 2 => { s.wr R.SYS_LEAN_CAUSE 0 with prof := { s.prof with forMode := none } }.modeDone 2
  | _ => s

/-- The switch is over with this RESULT; it has failed for 3 and 4. -/
def State.profEnd (s : State) (result : Nat) : State :=
  let s := (s.off F.CFG_PROFILE_STATUS_BUSY).put F.CFG_PROFILE_STATUS_RESULT result
  let s := if result = 0 then s else s.on F.CFG_PROFILE_STATUS_FAIL
  let s := if result = 3 then s else
    match s.prof.target with
    | some (p, lean) =>
      let s := ((s.put F.CFG_PROFILE_STATUS_ACTIVE p).put F.CFG_PROFILE_STATUS_LEAN lean.toNat).on F.CFG_PROFILE_STATUS_DONE
      { s with prof := { s.prof with leanActive := lean } }
    | none => s
  { s with prof := { s.prof with target := none, plan := none } }.modeAfterSwitch (result != 0)

/-- The switch ends when every head has passed stages 2 and 3. -/
def State.profCheck (s : State) : State :=
  if s.prof.plan.isSome && s.prof.todo.isEmpty && s.prof.reload.isEmpty then s.profEnd (if s.prof.failed then 4 else 0) else s

/-! ### Stage 2 (R74) -/

/-- One leaf that the new variant binds under head h. -/
def State.switchLeaf (s : State) (b : Bind) : State :=
  match s.boundOf b.unit with
  | none => (s.startBind b.unit).bind b
  | some o =>
    if !o.full && !b.full then
      match s.unit? b.unit with
      | some x => ((s.modEngine x.engine fun c => { c with actHalf := !c.actHalf }).startBind b.unit).bind b
      | none => s
    else
      let s := (s.parkUnit b.unit fun c => { c with reloading := true }).unbind b.unit
      { s with prof := { s.prof with reload := s.prof.reload ++ [b] } }

/-- Leaves of head h that the new variant no longer uses. -/
def State.dropLeaves (s : State) (v : Variant) (h : Nat) : State :=
  (s.prof.bound.filter fun o => o.head == h && !v.binds.any fun b => b.unit == o.unit).foldl
    (fun t o => (t.parkUnit o.unit id).unbind o.unit) s

/-- Switch head h to the plan as one step: flips dropped (R154), leaves, roots and lead, register lists last. EN follows the
variant; a head newly enabled starts, and the start of one switched off is abandoned. -/
def State.switchHead (s : State) (h : Nat) : State :=
  match s.prof.plan, s.prof.target with
  | some v, some (_, lean) =>
    let was := natBit s.prof.heads h
    let s := (v.binds.filter fun b => b.head == h).foldl State.switchLeaf ((s.dropFlips h).dropLeaves v h)
    let s := s.headVariant v lean h
    let first := !s.prof.othersDone
    let s := { s with prof := { s.prof with todo := s.prof.todo.filter (· != h), switched := h :: s.prof.switched,
                                            othersDone := true } }
    let s := s.listWrites (headPart v h)
    let s := if first then s.listWrites (otherPart v) else s
    let s := if !natBit v.heads h then
        (if s.running h || (s.head h).phase == .stopped then s else s.abandonStart h).setEn h false
      else if !was && (s.head h).phase == .stopped then (s.setEn h true).startHead h else s
    s.headDone h
  | _, _ => s

/-- The heads that the variant newly enables switch with the first head (R75). -/
def State.switchNew (s : State) : State :=
  match s.prof.plan with
  | some v => (s.prof.todo.filter fun h => natBit v.heads h && !natBit s.prof.heads h && !s.running h).foldl State.switchHead s
  | none => s

/-- A loaded leaf restarts at its head's boundary (R74 stage 3). -/
def State.restartReloaded (s : State) (h : Nat) : State :=
  match s.prof.reload.filter fun b => b.head == h && s.prof.reloaded.contains b.unit with
  | [] => s
  | bs =>
    (bs.foldl (fun t b =>
      let t := (t.startBind b.unit).bind b
      { t with prof := { t.prof with reload := t.prof.reload.filter (· != b),
                                     reloaded := t.prof.reloaded.filter (· != b.unit) } }) s).headDone h

/-- The plan switches head h off at its next boundary. -/
def State.switchesOff (s : State) (h : Nat) : Bool :=
  match s.prof.plan with
  | some v => s.prof.todo.contains h && !natBit v.heads h
  | none => false

/-- What the sequencer does at head h's frame boundary, or when the head has stopped and none is to come. -/
def State.profBoundary (s : State) (h : Nat) : State :=
  let s := s.restartReloaded h
  if s.prof.target.isNone then s
  else
    let s := if s.prof.plan.isSome && s.prof.todo.contains h then (s.switchHead h).switchNew else s
    s.profCheck

/-! ### Stage 1 (R74, R76) -/

/-- The target section and its programs, each re-checked; none on a mismatch. -/
def State.readPlan (s : State) (p : Nat) (lean : Bool) : Option (Variant × List (Nat × List Word)) :=
  let prog := fun n => (s.readSection 2 n).bind readProgram
  match (s.readSection 8 (if lean then 0x100 + p else p)).bind (readVariant lean fun n => (prog n).map (·.length)) with
  | some v => some (v, v.binds.filterMap fun b => (prog b.program).map fun c => (b.unit, c))
  | none => none

/-- Load what stage 1 may load: the idle half of a leaf whose programs, old and new, fit one half; a leaf newly used. -/
def State.stage1Leaf (s : State) (b : Bind) (code : List Word) : State :=
  match s.boundOf b.unit, s.unit? b.unit with
  | none, _ => s.placeBind b code
  | some o, some x =>
    if !o.full && !b.full then s.putProgram (s.physOf x.engine) (!(s.engine x.engine).actHalf) code else s
  | _, none => s

/-- A QSPI command that runs holds up the sequencer's read of the flash (R337). -/
def State.flashBusy (s : State) : Bool :=
  s.boot.cache == 0 && s.flag F.QSPI_STATUS_BUSY && !s.flag F.QSPI_STATUS_HELD

/-- PROFILE_STAGE1_DONE: every program read and loaded, or the switch abandoned. A head that does not run has no boundary and
switches now, unless it is newly enabled and another head's boundary will come. A head that has passed stage 2 before the switch was
redirected does not switch again (R76). -/
def execProfileStage1Done (s : State) : Out := .next <|
  match s.prof.target with
  | none => s
  | some (p, lean) =>
    if s.prof.plan.isSome || !s.pclkOn || s.flashBusy then s
    else match s.readPlan p lean with
      | none => s.profEnd 3
      | some (v, codes) =>
        let s := (v.binds.filter fun b => !s.prof.switched.contains b.head).foldl (fun t b =>
          match codes.find? fun e => e.1 == b.unit with
          | some e => t.stage1Leaf b e.2
          | none => t) s
        let todo := heads4.filter fun h => (natBit s.prof.heads h || natBit v.heads h) && !s.prof.switched.contains h
        let s := { s with prof := { s.prof with plan := some v, todo := todo } }
        let anyRun := todo.any s.running
        ((todo.filter fun h => !s.running h && (natBit s.prof.heads h || !anyRun)).foldl State.switchHead s).profCheck

/-- PROFILE_RELOAD_DONE for leaf u: loaded, or failed on its re-check (R76). With its head not running it restarts now. -/
def execProfileReloadDone (u : UnitId) (s : State) : Out := .next <|
  match s.prof.reload.find? fun b => b.unit == u.toNat && !s.prof.reloaded.contains u.toNat && s.pclkOn && !s.flashBusy with
  | none => s
  | some b =>
    match (s.readSection 2 b.program).bind readProgram with
    | none =>
      let s := s.on F.CFG_PROFILE_STATUS_FAIL
      { s with prof := { s.prof with reload := s.prof.reload.filter (· != b), failed := true } }.headDone b.head |>.profCheck
    | some code =>
      let s := s.placeBind b code
      let s := { s with prof := { s.prof with reloaded := b.unit :: s.prof.reloaded } }
      if s.running b.head then s else (s.restartReloaded b.head).profCheck

/-! ### A whole variant (R56 steps 8 and 9, R76, R217) -/

/-- Programs, leaves, roots and leads of variant v on every head; `start` says which leaves start. -/
def State.placeVariant (s : State) (v : Variant) (codes : List (Nat × List Word)) (lean : Bool)
    (start : CoreSt → Bool) : State :=
  let gone := s.prof.bound.filter fun o => !v.binds.any fun b => b.unit == o.unit
  let s := gone.foldl (fun t o => t.parkUnit o.unit id) s
  let s := v.binds.foldl (fun t b =>
    let t := match codes.find? fun e => e.1 == b.unit with
      | some e => t.placeBind b e.2
      | none => t
    match t.unit? b.unit with
    | some x => if start (t.engine x.engine) then t.startBind b.unit else t
    | none => t) s
  let s := { s with prof := { s.prof with bound := v.binds, leanActive := lean } }
  s.forEach 4 fun h s => s.headVariant v lean h

end Sys2Proof.Machine
end

