-- ==== Sys2Proof/Machine/Beam.lean ====
section
/-! DEFINITION. The beam (R159 to R181): what happens at a line's start, at the end of its active period and at a frame
boundary; the dispatcher (R12, R29, R34, R35); deadlines, underrun and abort (R13, R137, R179, R180); flips taken (R152);
beam lists (R173 to R177); refuge view (R192, R193); freezing (R372, R373). The beam moves by these commands: between two of
them a head composes nothing that another command could touch unless it says so. -/

namespace Sys2Proof.Machine

/-! ### Dispatch (R12, R29, R34) -/

/-- ECLK periods in `n` lines of head h, rounded down. -/
def State.lineCycles (s : State) (h n : Nat) : Nat :=
  let p := s.pllOf (s.rasterOf h)
  n * (s.head h).tim.htotal * (2400 / s.eclkPer) * 65536 * p.2 / (25 * p.1)

/-- The dispatcher issues a layer no task while its head is frozen over it, or waits for the boundary after that (R372,
R373). -/
def State.frzHeld (s : State) (h r : Nat) : Bool :=
  (s.frozen h && s.ringHalted h r) || (s.layer h (s.get (F.ARRAY_ROOT_LAYER (4 * h + r)))).frzWait

/-- The dispatchers of this head stand still: REFUGE, until the head has left it (R219, R221). -/
def State.dispatchOff (s : State) (h : Nat) : Bool :=
  s.inRefugeView h || s.isClone h || (s.modeNow == 5 && (s.mode.exitTo.isNone || s.mode.exitHeads.contains h))

/-- The line task of R29 for ring r, rung at the root's face. The ring's slot is the line's from the issue on (R14). LASTLINE
follows whether or not the queue had room: R54 does not say what it shows of a task that a full queue refused (log 115). -/
def State.dispatchRing (s : State) (h r line : Nat) : State :=
  let n := 4 * h + r
  if !s.flag (F.ARRAY_ROOT_VALID n) || s.frzHeld h r then s
  else
    let u := s.ringRoot h r
    let l := s.get (F.ARRAY_ROOT_LAYER n)
    let x := s.head h
    let mb0 := w32 (2 ^ 28 + h * 2 ^ 26 + l * 2 ^ 23 + r * 2 ^ 21 + line % 8 * 2 ^ 18 + line)
    let mb1 := w32 (x.tim.hactive * 65536)
    let mb2 := w32 (bitsOf (s.rd (R.HEAD_FRAME h)) 0 16 * 65536 + s.get F.CFG_PROFILE_STATUS_ACTIVE)
    let mb3 := s.cycleAt s.now + w32 (s.lineCycles h x.lead)
    let tid := s.nextTid
    let s := s.modUnit u fun z => { z with mb0 := mb0, mb1 := mb1, mb2 := mb2, mb3 := mb3 }
    let s := s.modHead h fun z => { z with outstanding := z.outstanding ++ [(r, line, tid)], slots := z.slots ++ [(r, line)] }
    let s := s.ring u 3 u (.dispatcher h r)
    let s := if s.nextTid = tid then s.modHead h fun z => { z with outstanding := z.outstanding.filter fun o => o.2.2 != tid }
             else s
    s.put (F.ARRAY_DISPSTAT_LASTLINE h) line

/-- The dispatcher at the start of line y: the tasks of line y + L. -/
def State.dispatchLine (s : State) (h : Nat) (y : Int) : State :=
  let x := s.head h
  let n := y + x.lead
  if s.dispatchOff h ∨ n < 0 ∨ (x.tim.vactive : Int) ≤ n then s
  else s.forEach 4 fun r s => s.dispatchRing h r n.toNat

/-! ### Deadlines (R13, R137, R139, R179) -/

/-- A reason of R137 or R219 for which ring r's layer is shown transparent without underrun: whether it reduces the frame
under R188. -/
def State.liveExcept (s : State) (h r : Nat) : Option Bool :=
  let n := 4 * h + r
  let es := (s.leavesOf (s.ringRoot h r)).map s.engine
  if s.frzHeld h r || es.any (·.reloading) then some true
  else if (s.get (F.ARRAY_ROOT_ACTION n) = 1 && es.any (·.faulted)) || es.any (·.cmdParked) || s.dispatchOff h then some false
  else none

/-- The deadline of line y for layer l, which is live: the state, and whether the line is missing. -/
def State.liveDeadline (s : State) (h l : Nat) (y : Int) : Bool × State :=
  let en := s.flag (F.HEAD_L_MODE_EN h l)
  match s.ringOfLayer h l with
  | none => (false, if en then s.on (F.HEAD_COMP_STATUS_NOROOT h) else s)
  | some r =>
    match s.liveExcept h r with
    | some red =>
      let s := s.modLayer h l fun z => { z with hidden := true, frzWait := z.frzWait || s.frzHeld h r }
      (false, if red && en && !(s.head h).reduced then
          (h :: s.clonesOf h).foldl (fun t c => (t.modHead c fun x => { x with reduced := true }).on
            (F.HEAD_CHK_STATUS_REDUCED c)) s
        else s)
    | none => (en && !(s.layer h l).hidden && !(s.head h).doneLines.contains (r, y.toNat), s)

/-- A memory layer whose fetch of the line is late, with EN = 1 (R139). One that a hand-over holds is late too (R230). -/
def State.memLate (s : State) (h l : Nat) (late : BitVec 12) : Bool :=
  let z := s.layer h l
  (late.getLsbD l || (z.next.bind (·.held)).isSome) && decide (l < (s.head h).nlayers) && bitsOf z.act.srcfmt 30 2 == 0 &&
    z.next.isSome && !z.lost && s.flag (F.HEAD_L_MODE_EN h l)

/-- Every layer at the deadline of line y: the layers at fault, live and memory. -/
def State.deadline (s : State) (h : Nat) (y : Int) (late : BitVec 12) : (List Nat × List Nat) × State :=
  let mem := (List.range 8).filter fun l => s.memLate h l late
  let r := (List.range 8).foldl (fun (acc : List Nat × State) l =>
    if bitsOf (acc.2.layer h l).act.srcfmt 30 2 = 1 then
      let d := acc.2.liveDeadline h l y
      (if d.1 then acc.1 ++ [l] else acc.1, d.2)
    else acc) ([], s)
  ((r.1, mem), r.2)

/-! ### Flips (R152) -/

/-- No set is pending any more. WAITED clears with it, be the set taken or dropped by its timeout: R152 states the clearing for a
set that is taken (log 119). -/
def State.clearPending (s : State) (h l : Nat) : State :=
  (((s.modLayer h l fun y => { y with pend := none, fence := none }).off (F.HEAD_L_FLIPSTAT_PENDING h l)).off
    (F.HEAD_L_FLIPSTAT_SIGNALLED h l)).off (F.HEAD_L_FLIPSTAT_WAITED h l)

/-- R152 for one layer. With TIMEOUT = 0, a wait without limit, WAITED saturates at 15: the spec does not say (log 119). -/
def State.flipLayer (s : State) (h l : Nat) : State :=
  let y := s.layer h l
  match y.pend with
  | none => s
  | some c =>
    if y.fence.isNone || s.flag (F.HEAD_L_FLIPSTAT_SIGNALLED h l) then
      (((s.modLayer h l fun z => { z with act := c }).wr (R.HEAD_L_ACT_BASE h l) c.base).clearPending h l).onBit
        (F.HEAD_COMP_STATUS_FLIPDONE h) l
    else
      let w := min 15 (s.get (F.HEAD_L_FLIPSTAT_WAITED h l) + 1)
      if y.timeout ≠ 0 ∧ w = y.timeout then (s.clearPending h l).onBit (F.HEAD_COMP_STATUS_FTO h) l
      else s.put (F.HEAD_L_FLIPSTAT_WAITED h l) w

/-- R152 at head h's boundary; a frozen head's flips wait (R372). -/
def State.takeFlips (s : State) (h : Nat) : State := if s.frozen h then s else s.forEach 8 fun l s => s.flipLayer h l

/-! ### Check windows at a boundary (R184, R185, R190) -/

/-- The window's last pixel has left the compositor. -/
def State.windowComposed (s : State) (h n : Nat) : Bool :=
  let w := (s.head h).win n
  let x := s.head (s.rasterOf h)
  let y1 : Int := bitsOf w.rectB 16 12
  decide (y1 - 1 ≤ x.endedLine ∨ y1 ≤ x.line ∨ (x.line = y1 - 1 ∧ bitsOf w.rectB 0 12 ≤ x.composed))

/-- The frame in progress has left the compositor; its last lines have still to be recovered at the pads (R166, R187). Of a
window whose last pixel has not left, or that a framing fault has met, no signature is to come (R183, R188). A comparison of
the frame before it that has not come by now does not come. -/
def State.closeFrame (s : State) (h : Nat) (aborted : Bool) : State :=
  let s := s.forEach 16 fun n s => if (s.head h).old.pending n then s.settleAge h n false else s
  let x := s.head h
  let ws := (List.range 16).foldl (fun t n =>
    let w := x.win n
    if w.live then
      tabSet (dflt {}) t n
        { w with final := w.final || !s.windowComposed h n || x.framing, age0 := s.get (F.HEAD_W_RESULT_AGE h n) }
    else t) x.wins
  s.modHead h fun z =>
    { z with old := { wins := ws, frame := s.rd (R.HEAD_FRAME h), reduced := x.reduced, dvArm := x.dvArm,
                      aborted := aborted, unsynced := true } }

/-- Ages at the boundary after the frame that `closeFrame` has ended; of a window whose comparison is to come, that settles
it. -/
def State.ageWindows (s : State) (h : Nat) : State :=
  s.forEach 16 fun n s =>
    let w := (s.head h).old.win n
    if w.live && w.final then s.settleAge h n w.passed else s

/-- A window's copies break a limit of R184. -/
def badWindow (t : Timing) (a b c : Word) : Bool :=
  let x0 := bitsOf a 0 12
  let y0 := bitsOf a 16 12
  let x1 := bitsOf b 0 12
  let y1 := bitsOf b 16 12
  bitOf c 31 && (decide (x1 ≤ x0 ∨ y1 ≤ y0 ∨ t.hactive < x1 ∨ t.vactive < y1) || bitsOf c 28 3 == 0)

def State.latchWindow (s : State) (h n : Nat) : State :=
  let w := (s.head h).win n
  let a := s.rd (R.HEAD_W_RECT_A h n)
  let b := s.rd (R.HEAD_W_RECT_B h n)
  let c := s.rd (R.HEAD_W_CTRL h n)
  let bad := badWindow (s.head h).tim a b c
  let s := s.modWin h n fun _ => { rectA := a, rectB := b, ctrl := c, expect := s.rd (R.HEAD_W_EXPECT h n), bad := bad }
  let s := if bad then s.on (F.HEAD_CHK_STATUS_WBAD h) else s
  s.iff ((bitOf c 31 && !bitOf w.ctrl 31) || a != w.rectA || b != w.rectB) fun s => s.windowChanged h n

/-! ### Refuge view (R192, R193, R196) -/

def State.refugeStep (s : State) (h : Nat) : State :=
  let x := s.head h
  let view := s.inRefugeView h
  let s := s.modHead h fun x => { x with rfgEnter := false, rfgExit := false }
  if x.rfgEnter && !view then
    let s := s.dropFlips h
    let s := s.listWrites ((x.refuge.map (·.regs)).getD [])
    let s := (s.on (F.HEAD_CHK_STATUS_RFGVIEW h)).ageAll h 15
    if s.flag (F.HEAD_CHK_CTRL_RFGDV h) && s.flag (F.HEAD_CHK_STATUS_DVSTOP h) then
      (s.off (F.HEAD_CHK_STATUS_DVSTOP h)).modHead h fun x =>
        { x with dvNeed := 0xFFFF, old := { x.old with dvArm := true } }
    else s
  else if x.rfgExit && view && !x.rfgEnter then (s.off (F.HEAD_CHK_STATUS_RFGVIEW h)).ageAll h 15
  else s

/-! ### Leaving REFUGE (R221) -/

/-- The roots of head h restart at its boundary on the way out. -/
def State.exitBoundary (s : State) (h : Nat) : State :=
  if s.mode.exitTo.isSome && s.mode.exitHeads.contains h then
    let s := s.restartRoots h
    { s with mode := { s.mode with exitHeads := s.mode.exitHeads.filter (· != h) } }.exitSettle
  else s

/-! ### The frame boundary -/

/-- A live layer whose leaves have all resumed returns at this boundary (R373). -/
def State.thaw (s : State) (h : Nat) : State :=
  s.forEach 8 fun l s =>
    if !(s.layer h l).frzWait then s
    else match s.ringOfLayer h l with
      | some r => if s.ringHalted h r then s
                  else ((s.cleanTree (s.ringRoot h r)).forgetGone (s.ringRoot h r)).modLayer h l fun z =>
                    { z with frzWait := false }
      | none => s.modLayer h l fun z => { z with frzWait := false }

/-- A pending beam list comes into force; the list in force restarts (R174, R175). -/
def State.armList (s : State) (h : Nat) : State :=
  let s := match (s.head h).blPend with
    | some p => (s.modHead h fun x => { x with blAct := if p.2 = 0 then none else some p, blPend := none }).on
        (F.HEAD_EVT_STATUS_BLARM h)
    | none => s
  s.put (F.HEAD_BL_STATUS_NEXT h) 0

/-- LINE of LINE_MATCH is the line that starts (R178). -/
def State.lineMatch (s : State) (h : Nat) (y : Int) : State :=
  if s.flag (F.HEAD_LINE_MATCH_EN h) && sgn 16 (s.get (F.HEAD_LINE_MATCH_LINE h)) == y then s.on (F.HEAD_EVT_STATUS_LINE h)
  else s

/-- Settings that come into force at a boundary: lead, composition, timing, refresh (R35, R148, R171, R172). -/
def State.latchFrame (s : State) (h : Nat) (restart : Bool) : State :=
  let s := s.latchComp h
  let half := s.halfWanted h
  let s := s.put (F.HEAD_STATUS_HALFREF h) half.toNat
  let t := s.timingRegs h
  let l := s.get (F.ARRAY_DISP_LEAD h)
  s.modHead h fun x =>
    let lead := x.leadPend.getD l
    { x with tim := t, lead := lead, leadPend := none,
             vblank := if restart then max (lead + 1) (1 + t.vsync + t.vbp) else t.v + (if half then t.vtotal else 0) }

/-- VSYNC is asserted on blanking line y (R160); after an abort it follows one front-porch line (R179). -/
def HeadSt.vsyncAt (x : HeadSt) (y : Int) : Bool :=
  if x.restart then decide (1 - (x.vblank : Int) ≤ y ∧ y < 1 - (x.vblank : Int) + x.tim.vsync)
  else decide (-((x.tim.vsync + x.tim.vbp : Nat) : Int) ≤ y ∧ y < -(x.tim.vbp : Int))

/-- The level at which a head sends VSYNC on the line in progress (R160, HEAD_SYNC.VPOL). -/
def State.vsyncLevel (s : State) (h : Nat) : Bool := (s.head h).vsync == s.flag (F.HEAD_SYNC_VPOL h)

/-- A line of the frame starts at the PHY: VSYNC, and links that drive something have sent none of its pixels. -/
def HeadSt.lineAt (x : HeadSt) (y : Int) : HeadSt :=
  { x with line := y, hpos := -(x.tim.hblank : Int), composed := 0, out := [], vsync := x.vsyncAt y,
           lvdsA := x.lvdsA.map fun _ => [], lvdsB := x.lvdsB.map fun _ => [] }

/-- The new frame begins at its first blanking line. An eDP head's main stream attributes carry HEAD_SYNC (R160). -/
def State.frameStart (s : State) (h : Nat) (vb : Nat) (restart : Bool) : State :=
  let s := s.forEach 8 fun l s => s.modLayer h l fun z =>
    { z with lost := false, hidden := z.frzWait, cur := none, next := none }
  let msa := if s.get (F.HEAD_CTRL_PHY h) = 2 then some (s.rd (R.HEAD_SYNC h)) else none
  let s := s.modHead h fun x =>
    { x with vblank := vb, restart := restart, endedLine := -1, doneLines := [], slots := [], reduced := false, rfgLost := false,
             rfgCur := none, rfgNext := none, dvArm := false, msa := msa }.lineAt (-(vb : Int))
  let s := (s.on (F.HEAD_EVT_STATUS_VBL h)).wr (R.HEAD_FRAME h) (s.rd (R.HEAD_FRAME h) + 1)
  s.lineMatch h (-(vb : Int))

/-- One head at its boundary, in the order of R154 and R192; its raster source gives the number of blanking lines. -/
def State.boundaryOne (s : State) (h : Nat) (restart : Bool) (vb : Option Nat) : State :=
  let s := (s.ageWindows h).takeFlips h
  let s := ((s.profBoundary h).unitCmdBoundary h).thaw h
  let s := ((s.exitBoundary h).refugeStep h).latchFrame h restart
  let s := s.forEach 16 fun n s => s.latchWindow h n
  (s.armList h).frameStart h (vb.getD (s.head h).vblank) restart

/-- The head stops here because it was asked to, or because its new variant has switched it off (R168, R75). -/
def State.stopsHere (s : State) (h : Nat) : Bool := s.flag (F.HEAD_STATUS_STOPPING h) || s.switchesOff h

/-- A head stops with its clones. The dispatcher has acted on the roots as they were (R397) when a switch that waits for a boundary
of any of them goes on (R75). -/
def State.stopRaster (s : State) (h : Nat) : State :=
  let cs := s.followers h
  ((h :: cs).foldl State.profBoundary (s.stopHead h)).exitSettle

/-- A clone stops alone; `lost` when its timing no longer matches its source's (R170). -/
def State.stopClone (s : State) (c : Nat) (lost : Bool) : State :=
  (((s.stopOne c).iff lost fun s => s.on (F.HEAD_EVT_STATUS_CLONELOST c)).profBoundary c).exitSettle

/-- The frame in progress ends on head h and its clones. -/
def State.closeFrames (s : State) (h : Nat) (aborted : Bool) : State :=
  (h :: s.clonesOf h).foldl (fun t c => t.closeFrame c aborted) s

/-- A clone whose timing no longer matches its source's stops (R170); that of one still starting is in its registers. -/
def State.cloneMatches (s : State) (h c : Nat) : Bool :=
  let a := (s.head h).tim
  let b := if s.running c then (s.head c).tim else s.timingRegs c
  a.hactive == b.hactive && a.vactive == b.vactive && a.htotal == b.htotal && a.vtotal == b.vtotal
def State.dropClones (s : State) (h : Nat) : State :=
  (s.followers h).foldl (fun t c => if t.cloneMatches h c then t else t.stopClone c true) s

/-- The frame boundary of head h and of its clones. -/
def State.boundary (s : State) (h : Nat) (restart : Bool) : State :=
  let s := s.closeFrames h restart
  if s.stopsHere h then s.stopRaster h
  else
    let s := s.boundaryOne h restart none
    let vb := (s.head h).vblank
    ((s.clonesOf h).foldl (fun t c =>
      if t.stopsHere c then t.stopClone c false
      else t.boundaryOne c restart (some vb)) s).dropClones h

/-! ### Abort (R179, R180) -/

/-- ABORTTRIP: ABORT_MAX + 1 aborts within 32,768 LFCLK periods. -/
def State.abortTrip (s : State) (h : Nat) : State :=
  let t := s.mode.lf
  let s := s.modHead h fun x => { x with abortTimes := t :: x.abortTimes.filter fun a => decide (t < a + 32768) }
  if (s.rd (R.HEAD_ABORT_MAX h)).toNat + 1 ≤ (s.head h).abortTimes.length then
    (s.on (F.HEAD_EVT_STATUS_ABORTTRIP h)).leanTrigger F.SYS_LEAN_CAUSE_ABORT h
  else s

/-- The abort at the deadline of line y for the live and memory layers at fault, or for a late fetch of the refuge surface, which
is no layer's: LAYER then is a value that the spec leaves open (R179, R192). -/
def State.abortFrame (s : State) (h : Nat) (y : Int) (live mem : List Nat) (rfg : Bool) : State :=
  let cause := (if live.isEmpty then 0 else 1) + (if mem.isEmpty && !rfg then 0 else 2)
  let low := if rfg then Config.pick s.freeCtr % 8 else (live ++ mem).foldl min 7
  let s := if rfg then s.draw else s
  let s := (s.on (F.HEAD_EVT_STATUS_ABORT h)).satUp (F.HEAD_UNDERRUN_CNT_COUNT h)
  let s := ((s.put (F.HEAD_UNDERRUN_INFO_CAUSE h) cause).put (F.HEAD_UNDERRUN_INFO_LAYER h) low).put
    (F.HEAD_UNDERRUN_INFO_LINE h) (unsgn 16 y)
  let s := s.modHead h fun x => { x with aborts := x.aborts + 1 }
  ((s.dispatcherClean h).abortTrip h).boundary h true

/-! ### Beam lists (R173 to R177) -/

/-- Key of entry i of bank b. -/
def blKey (h b i : Nat) : Nat := 0x40108000 + 0x10000 * h + 0x4000 * b + 16 * i

structure BlEntry where
  line : Int
  hpos : Int
  addr : Nat
  value : Word
  evt : Bool
  /-- the bits that R173 marks zero are zero -/
  zeros : Bool
  deriving DecidableEq, Repr

def blEntry (ws : List Word) : BlEntry :=
  let w := ws.getD 0 0
  let f := ws.getD 3 0
  { line := sgn 16 (bitsOf w 16 16), hpos := sgn 16 (bitsOf w 0 16), addr := (ws.getD 1 0).toNat, value := ws.getD 2 0,
    evt := bitOf f 0, zeros := decide (f &&& 0xFFFFFFFE = 0) }

/-- A target that R173 allows in the list of head h. -/
def blTargetOk (h a : Nat) : Bool :=
  let off := a % 0x10000
  a % 4 == 0 &&
    if a / 0x10000 = 0x4010 + h then
      decide (off = 0x0C) || decide (0x4000 ≤ off ∧ off < 0x6000)
        || (decide (0x100 ≤ off ∧ off < 0x300) && [0x00, 0x08, 0x0C, 0x10, 0x14, 0x18].contains (off % 0x40))
    else decide (a / 0x10000 = 0x4008) && acceptsWrite a

/-- The timing that a list is checked against: the one in force, or the registers' while the head does not run. -/
def State.blTiming (s : State) (h : Nat) : Timing × Nat :=
  if s.running h then ((s.head h).tim, (s.head h).tim.v + (if s.flag (F.HEAD_STATUS_HALFREF h) then (s.head h).tim.vtotal else 0))
  else (s.timingRegs h, (s.timingRegs h).v)

/-- The lowest REASON that entry e earns; `prev` are the entries before it, the last one first. -/
def blFault (h : Nat) (t : Timing) (v : Nat) (prev : List BlEntry) (e : BlEntry) : Nat :=
  let below := fun (p : BlEntry) => decide (e.line < p.line ∨ e.line = p.line ∧ e.hpos < p.hpos)
  let same := fun (p : BlEntry) => p.line == e.line && p.hpos == e.hpos
  if (prev.head?.map below).getD false then 2
  else if e.line < -(v : Int) ∨ (t.vactive : Int) ≤ e.line ∨ e.hpos < -(t.hblank : Int) ∨ (t.hactive : Int) ≤ e.hpos then 3
  else if !blTargetOk h e.addr then 4
  else if 16 ≤ (prev.takeWhile same).length then 5
  else if !e.zeros then 6
  else 0

/-- The first fault of a list. -/
def blCheck (h : Nat) (t : Timing) (v : Nat) : List BlEntry → List BlEntry → Nat
  | _, [] => 0
  | prev, e :: es => match blFault h t v prev e with
    | 0 => blCheck h t v (e :: prev) es
    | r => r

/-- The words of entry i of bank b, as stored. -/
def State.blWords (s : State) (h b i : Nat) : List Word := (List.range 4).map fun j => s.rawWord (blKey h b i + 4 * j)

/-- BEAM_LIST_CHECK_DONE: the check ends with an accepted arm or a refusal (R174). -/
def execBeamListCheckDone (h : Head) (s : State) : Out := .next <|
  match (s.head h).blCheck with
  | none => s
  | some (b, n) =>
    let t := s.blTiming h
    let r := if 1024 < n then 1
      else blCheck h t.1 t.2 [] ((List.range n).map fun i => blEntry (s.blWords h b i))
    let s := s.modHead h fun x => { x with blCheck := none }
    if r = 0 then
      (s.modHead h fun x => { x with blPend := some (b, n) }).wr (R.HEAD_BL_CTRL h) (w32 (b * 65536 + n))
    else (s.on (F.HEAD_EVT_STATUS_BLREF h)).put (F.HEAD_BL_STATUS_REASON h) r

/-- Apply an entry: a write of the head's own, or one that joins the AUD queue (R175, R176). -/
def State.blApply (s : State) (h : Nat) (e : BlEntry) : State :=
  if e.addr / 0x10000 = 0x4008 then
    if 16 ≤ s.aud.queue.length then s.on (F.HEAD_EVT_STATUS_BLDROP h)
    else ({ s with aud := { s.aud with queue := s.aud.queue ++ [(w32 e.addr, e.value)] } }).iff e.evt fun s =>
      s.on (F.HEAD_EVT_STATUS_BLEVT h)
  else (s.maskWrite e.addr e.value).iff e.evt fun s => s.on (F.HEAD_EVT_STATUS_BLEVT h)

/-- The beam stands at (line, hpos): what lies to the left of it is composed. -/
def State.beamTo (s : State) (h : Nat) (hpos : Int) : State :=
  let s := s.composeTo (s.rasterOf h) hpos.toNat
  s.modHead h fun x => { x with hpos := max x.hpos hpos }

/-- The next entry of the list in force, its index and its words as delivered with their errors noted. -/
def State.blNext (s : State) (h : Nat) : Option (Nat × (BlEntry × Bool) × State) :=
  match (s.head h).blAct with
  | none => none
  | some (b, n) =>
    let i := s.get (F.HEAD_BL_STATUS_NEXT h)
    if n ≤ i then none
    else
      let r := s.readAs 2 (blKey h b i) (blKey h b i) 16
      some (i, (blEntry (wordsOf r.1.1), r.1.2 == .uncorr), r.2)

/-- The beam is at, or has passed, entry i on the current line: it is applied, or passed over. -/
def State.blPass (s : State) (h i : Nat) (e : BlEntry) (bad : Bool) : State :=
  let x := s.head h
  let s := s.put (F.HEAD_BL_STATUS_NEXT h) (i + 1)
  if e.line < -(x.vblank : Int) ∨ s.frozen h then s
  else if !bad ∧ e.line = x.line ∧ -(x.tim.hblank : Int) ≤ e.hpos ∧ e.hpos < x.tim.hactive then
    (s.beamTo h e.hpos).blApply h e
  else s.on (F.HEAD_EVT_STATUS_BLSKIP h)

/-- Pass every entry whose line is the current one or an earlier one. -/
def State.blPassLine : Nat → Nat → State → State
  | 0, _, s => s
  | n + 1, h, s =>
    match s.blNext h with
    | some (i, (e, bad), t) => if e.line ≤ (s.head h).line then State.blPassLine n h (t.blPass h i e bad) else s
    | none => s
def State.passLists (s : State) (h : Nat) : State := (h :: s.clonesOf h).foldl (fun t c => State.blPassLine 1024 c t) s

/-- BEAM_LIST_ENTRY: the beam reaches the position of the next entry; of an entry of a later line it has not (R175). -/
def execBeamListEntry (h : Head) (s : State) : Out := .next <|
  if !s.running h then s
  else match s.blNext h with
    | some (i, (e, bad), t) => if e.line ≤ (s.head h).line then t.blPass h i e bad else s
    | none => s

/-- BEAM_LIST_AUD_WRITE: the AUD queue drains by one write (R176). -/
def execBeamListAudWrite (s : State) : Out := .next <|
  match s.aud.queue with
  | e :: q => if s.pclkOn then { s with aud := { s.aud with queue := q } }.audWrite (e.1.toNat % 0x10000) e.2 else s
  | [] => s

/-! ### The rows of the beam -/

/-- The active period of the current line ends: what the beam passes on the way happens first. -/
def State.finishLine (s : State) (h : Nat) : State :=
  let s := s.passLists h
  let x := s.head h
  if x.endedLine < x.line then s.endLine h else s

/-- Line y starts on head h and its clones: horizontal timing, events (R171, R178). -/
def State.lineBegin (s : State) (h : Nat) (y : Int) : State :=
  (h :: s.clonesOf h).foldl (fun t c =>
    let r := t.timingRegs c
    let t := t.modHead c fun x =>
      let tim := { x.tim with hfp := r.hfp, hsync := r.hsync, hbp := r.hbp }
      { x with tim := tim }.lineAt y
    let t := if y = 0 then t.on (F.HEAD_EVT_STATUS_ACT c) else t
    t.lineMatch c y) s

/-- The start of line y once its deadline is met: buffers move on, line y + 1 is fetched, line y + L is dispatched. -/
def State.lineRun (s : State) (h : Nat) (y : Int) (late : BitVec 12) : State :=
  let hs := h :: (s.clonesOf h).filter s.inRefugeView
  let s := s.lineBegin h y
  let s := hs.foldl (fun t c => (t.advanceBuffers c late).fetchLine c (y + 1)) s
  s.dispatchLine h y

/-- The deadline of the refuge surface's line is missed (R139, R192). -/
def State.refugeLate (s : State) (h : Nat) (late : BitVec 12) : Bool :=
  late.getLsbD (8 + h) && (s.head h).rfgNext.isSome && !(s.head h).rfgLost

/-- LINE_START: the beam of head h leaves its line for the next one of the same frame. `late` names the memory layers whose fetch
has not completed, and in bits 8 to 11 the heads whose refuge fetch has not. At a deadline that fails, the frame is aborted at the
line's start. -/
def execLineStart (h : Head) (late : BitVec 12) (s : State) : Out := .next <|
  let x := s.head h
  if !s.running h || s.isClone h || decide ((x.tim.vactive : Int) ≤ x.line + 1) then s
  else
    let s := s.finishLine h
    let y := x.line + 1
    if y < 0 then (s.lineRun h y late).dropClones h
    else if s.inRefugeView h then
      if s.refugeLate h late then s.abortFrame h y [] [] true else (s.lineRun h y late).dropClones h
    else
      let d := s.deadline h y late
      if d.1.1.isEmpty && d.1.2.isEmpty then (d.2.lineRun h y late).dropClones h
      else d.2.abortFrame h y d.1.1 d.1.2 false

/-- SLOT_RELEASE: the end of the active period of the line in progress (R14, R36). -/
def execSlotRelease (h : Head) (s : State) : Out := .next <|
  if s.running h && !s.isClone h && decide (0 ≤ (s.head h).line) then s.finishLine h else s

/-- The beam of head h is on the last line of its frame. -/
def State.lastLine (s : State) (h : Nat) : Bool :=
  s.running h && decide ((s.head h).line + 1 = (s.head h).tim.vactive)

/-- FRAME_BOUNDARY: at the end of the last line a new frame starts. With a stop asked for, none does (R168). -/
def execFrameBoundary (h : Head) (s : State) : Out := .next <|
  if !s.lastLine h || s.isClone h || s.flag (F.HEAD_STATUS_STOPPING h) then s
  else (s.finishLine h).boundary h false

/-- STORE_TO_LINE_STALL_END: the slot is free, and the store that waited for it completes (R14). -/
def execStoreToLineStallEnd (e : EngineNo) (s : State) : Out := .next <|
  match s.linePut e.val with
  | .stall => s
  | _ => s.replay (.se e)

/-- CARAVAN_FORWARD (R396). -/
def execCaravanForward (u : UnitId) (child : BitVec 6) (s : State) : Out := .next <| s.forward u.toNat child.toNat

end Sys2Proof.Machine
end

