-- ==== Sys2Proof/Machine/Heads.lean ====
section
/-! DEFINITION. Events of a head's start and stop (R163, R165, R167, R168, R170), the Mirage check's events (R183, R187 to
R191) and the DVALID generator's tick (R194 to R196). -/

namespace Sys2Proof.Machine

/-! ### Start and stop -/

/-- PIXEL_PLL_LOCK (R163, R167 step 2). A clone has no PLL of its own. -/
def execPixelPllLock (h : Head) (s : State) : Out := .next <|
  if (s.head h).phase == .locking then (s.on (F.HEAD_STATUS_PLLLOCK h)).phyStart h else s

/-- PIXEL_PLL_LOCK_TIMEOUT (R163). -/
def execPixelPllLockTimeout (h : Head) (s : State) : Out := .next <|
  if (s.head h).phase == .locking then
    ((s.on (F.HEAD_EVT_STATUS_LOCKLOST h)).put (F.HEAD_STATUS_CFGERR h) 4).modHead h fun x => { x with phase := .stopped }
  else s

/-- LINK_TRAINING_DONE (R167 step 3): training has come to an end, with success or without. A fast training that fails is followed by
a full one (R217); of a full one that fails, nothing is stated (log 123). -/
def execLinkTrainingDone (e : TrainingEnd) (s : State) : Out := .next <|
  let h := e.head
  let x := s.head h
  if x.phase != .training then s
  else if e.ok then
    (s.on (F.HEAD_STATUS_PHYUP h)).modHead h fun x =>
      { x with phase := .ready, trained := if x.fastTrain then x.trained else x.phyRun, fastTrain := false }
  else if x.fastTrain then (s.modHead h fun x => { x with fastTrain := false }).phyStart h
  else s

/-- RUN sets: ages and results as at a head start (R190), the DVALID ticks from now on (R194), refuge view in REFUGE (R219)
unless its end is under way (R221). -/
def State.runSet (s : State) (h : Nat) : State :=
  let s := (s.on (F.HEAD_STATUS_RUN h)).modHead h fun x => { x with phase := .running }
  let s := (s.ageAll h 15).forEach 16 fun n s => s.off (F.HEAD_W_RESULT_VALID h n)
  let s := s.dvRestart h
  let s := s.modHead h fun x => { x with wins := [], old := {}, framing := false }
  if s.modeNow = 5 ∧ s.mode.exitTo.isNone then s.modHead h fun x => { x with rfgEnter := true } else s

/-- A clone joins its source's raster where it stands. -/
def State.joinRaster (s : State) (h src : Nat) : State :=
  let x := s.head src
  let t := s.timingRegs h
  s.modHead h fun z => { z with line := x.line, hpos := -(t.hblank : Int), tim := t, vblank := x.vblank }

/-- The states in which a raster starts: boot holds it to its step 10, a resume to its step 5. Boot has passed that step when the
lean variant takes its place (R210), and when the control core waits for a debugger a head may be started through its port (R55). -/
def State.rasterMode (s : State) : Bool :=
  s.modeNow == 2 || s.modeNow == 3 || s.modeNow == 5 ||
    (s.modeNow == 1 && (s.boot.phase == .picture || s.boot.phase == .done || s.boot.phase == .waitLoop))

/-- RASTER_START (R167 step 4): the raster starts at the frame boundary with clear rings and queues (R397). -/
def execRasterStart (h : Head) (s : State) : Out := .next <|
  if (s.head h).phase != .ready || !s.rasterMode || (s.isClone h && !s.running (s.get (F.HEAD_CTRL_CLSRC h))) then s
  else
    let s := s.runSet h
    if s.isClone h then
      let src := s.get (F.HEAD_CTRL_CLSRC h)
      (s.boundaryOne h false (some (s.head src).vblank)).joinRaster h src
    else (s.dispatcherClean h).boundary h false

/-- HEAD_STOP_TAKE_EFFECT (R168): at the position where the next frame boundary would fall. -/
def execHeadStopTakeEffect (h : Head) (s : State) : Out := .next <|
  if s.lastLine h && s.flag (F.HEAD_STATUS_STOPPING h) then
    let t := (if s.isClone h then s else s.finishLine h).closeFrames h false
    if s.isClone h then t.stopClone h false else t.stopRaster h
  else s

/-- PIXEL_PLL_LOCK_LOSS (R163): clones run on their source's clock and stop with it. -/
def execPixelPllLockLoss (h : Head) (s : State) : Out := .next <|
  if s.running h && !s.isClone h then
    let cs := h.val :: s.followers h
    cs.foldl (fun t c => t.modHead c fun x => { x with old := {} }) ((s.stopRaster h).on (F.HEAD_EVT_STATUS_LOCKLOST h))
  else s

/-- PHYERR (R165): only on a running eDP head. -/
def execPhyerr (h : Head) (s : State) : Out := .next <|
  if s.running h && s.get (F.HEAD_CTRL_PHY h) == 2 then s.on (F.HEAD_EVT_STATUS_PHYERR h) else s

/-- FENCE_TIMEOUT (R152): this boundary is the one at which WAITED reaches TIMEOUT without a signal. -/
def execFenceTimeout (h : Head) (l : LayerNo) (s : State) : Out := .next <|
  let y := s.layer h l
  if s.running h && !s.frozen h && y.pend.isSome && y.fence.isSome && !s.flag (F.HEAD_L_FLIPSTAT_SIGNALLED h l)
      && y.timeout != 0 && s.get (F.HEAD_L_FLIPSTAT_WAITED h l) + 1 == y.timeout then
    (s.clearPending h l).onBit (F.HEAD_COMP_STATUS_FTO h) l
  else s

/-! ### The Mirage check (R183, R187 to R191, R193) -/

/-- The actions of R191 for a failure of window n, whose CTRL in force is `c`. A failure with AIRQ raises the interrupt for as long as
its WFAIL bit stands. -/
def State.windowFail (s : State) (h n : Nat) (c : Word) : State :=
  let was := natBit (s.get (F.HEAD_CHK_WFAIL_W h)) n
  let s := s.modHead h fun x => { x with airq := natSetBit x.airq n (bitOf c 23 || (was && natBit x.airq n)) }
  let s := (s.onBit (F.HEAD_CHK_WFAIL_W h) n).satUp (F.HEAD_CHK_FAILCNT_COUNT h)
  let s := if bitOf c 22 then s.modHead h fun x => { x with failSince := natSetBit x.failSince n true } else s
  let s := if bitOf c 21 then s.on (F.HEAD_CHK_STATUS_DVSTOP h) else s
  if !bitOf c 20 then s
  else if !s.inRefugeView h then s.modHead h fun x => { x with rfgEnter := true }
  else if s.flag (F.HEAD_CHK_CTRL_ESCALATE h) then
    (s.on (F.HEAD_CHK_STATUS_ESCAL h)).refugeTrigger F.SYS_REFUGE_CAUSE_ESCAL
  else s

/-- HEAD_h_FRAME of the frame that has ended, or of the one in progress. -/
def State.frameNo (s : State) (h : Nat) (old : Bool) : Word := if old then (s.head h).old.frame else s.rd (R.HEAD_FRAME h)

/-- RESULT of window n for frame `fr`; VALID sets once a comparison has been made (R187). -/
def State.putResult (s : State) (h n : Nat) (fr : Word) (made pass expf intf divf : Bool) : State :=
  (((((s.iff made fun s => s.on (F.HEAD_W_RESULT_VALID h n)).put (F.HEAD_W_RESULT_PASS h n) pass.toNat).put (F.HEAD_W_RESULT_EXPF h n)
    expf.toNat).put (F.HEAD_W_RESULT_INTF h n) intf.toNat).put (F.HEAD_W_RESULT_DIVF h n) divf.toNat).put
    (F.HEAD_W_RESULT_FRAME h n) (bitsOf fr 0 16)

/-- The diverse signature counts: DIVUNIT names a unit that the active profile uses (R189). -/
def State.diverseOf (s : State) (w : WinSt) : Option Word :=
  match s.unit? (bitsOf w.ctrl 0 12) with
  | some x => if s.usedNow x then w.div else none
  | none => none

/-- The comparisons of a window whose pad signature is `pad` (R188), in the frame that has ended or the one in progress. A pass
counts for R196 if its frame started after the clear of DVSTOP. -/
def State.judgeWindow (s : State) (h n : Nat) (old : Bool) (pad : Word) : State :=
  let x := s.head h
  let w := x.frameWin old n
  let int := ~~~w.crc
  let red := if old then x.old.reduced else x.reduced
  let arm := x.dvArm || old && x.old.dvArm
  let cexp := bitOf w.ctrl 30
  let cint := bitOf w.ctrl 29
  let cdiv := bitOf w.ctrl 28
  let dv := s.diverseOf w
  let expf := cexp && !red && pad != w.expect
  let intf := cint && pad != int
  let divf := cdiv && !red && dv != some pad
  let made := (cexp && !red) || cint || (cdiv && !red)
  let fail := expf || intf || divf
  let pass := !fail && !((cexp || cdiv) && red)
  let s := (s.wr (R.HEAD_W_PADSIG h n) pad).wr (R.HEAD_W_INTSIG h n) int
  let s := match dv with | some v => s.wr (R.HEAD_W_DIVSIG h n) v | none => s
  let s := if cdiv && !red && dv.isNone then s.on (F.HEAD_CHK_STATUS_DIVMISS h) else s
  let need := natBit x.dvNeed n
  let s := s.modFrameWin h old n fun w => { w with final := true, passed := pass, need0 := need }
  let s := s.putResult h n (s.frameNo h old) made pass expf intf divf
  let s := if pass && !arm then s.modHead h fun x => { x with dvNeed := natSetBit x.dvNeed n false } else s
  let s := if old then s.settleAge h n pass else s
  if fail then s.windowFail h n w.ctrl else s

/-- PAD_SIGNATURE_FINAL: the signature recovered at the pads is the internal one with the bits of `err` inverted. The PHY and the
receiver lag behind the compositor, so a window's signature in the frame that has ended comes before that in the next. -/
def execPadSignatureFinal (h : Head) (n : WindowNo) (err : Word) (s : State) : Out := .next <|
  if (s.head h).old.pending n then s.judgeWindow h n true (~~~((s.head h).old.win n).crc ^^^ err)
  else
    let w0 := (s.head h).win n
    let s := if s.running h && (s.head (s.rasterOf h)).line == ((bitsOf w0.rectB 16 12 : Nat) : Int) - 1 then
        s.composeTo (s.rasterOf h) (bitsOf w0.rectB 0 12) else s
    let w := (s.head h).win n
    if s.running h && w.live && !w.final && !(s.head h).framing && s.windowComposed h n then
      s.judgeWindow h n false (~~~w.crc ^^^ err)
    else s

/-- A pass of window n is withdrawn: AGE, and the window's bit of R196, are as if it had not passed (R183). -/
def State.unpass (s : State) (h n : Nat) (old : Bool) : State :=
  let w := (s.head h).frameWin old n
  if !w.passed then s
  else
    let s := if w.need0 then s.modHead h fun x => { x with dvNeed := natSetBit x.dvNeed n true } else s
    if old && !natBit (s.head h).old.aged n then s.put (F.HEAD_W_RESULT_AGE h n) (min 15 (w.age0 + 1)) else s

/-- A framing fault meets window n: comparison (b) fails, and a pass is withdrawn; a window without (b) whose signature has not
come neither passes nor fails (R183). -/
def State.framingWindow (s : State) (h n : Nat) (old : Bool) : State :=
  let w := (s.head h).frameWin old n
  if !w.live then s
  else
    let s := if old && !w.final then s.settleAge h n false else s
    if !bitOf w.ctrl 29 then s.modFrameWin h old n fun w => { w with final := true }
    else
      let s := if w.final then ((s.unpass h n old).on (F.HEAD_W_RESULT_INTF h n)).off (F.HEAD_W_RESULT_PASS h n)
        else s.putResult h n (s.frameNo h old) true false false true false
      (s.modFrameWin h old n fun w => { w with passed := false, final := true }).windowFail h n w.ctrl

/-- The frame at the pads is the one that has ended: the next one has sent no line, and no vertical sync has been reported. -/
def State.padsOld (s : State) (h : Nat) : Bool :=
  (s.head h).old.unsynced && (!s.running h || decide ((s.head (s.rasterOf h)).line < 0))

/-- FRAMING_FAULT (R183), of the frame at the pads. An aborted frame is not judged for framing. -/
def execFramingFault (h : Head) (s : State) : Out := .next <|
  let old := s.padsOld h
  if (s.head h).framing || (if old then (s.head h).old.aborted else !s.running h) then s
  else
    ((s.on (F.HEAD_CHK_STATUS_FRAMING h)).modHead h fun x => { x with framing := true }).forEach 16 fun n s =>
      s.framingWindow h n old

/-- RECOVERED_VERTICAL_SYNC (R183): a frame ends at the pads, and the receiver signs again. -/
def execRecoveredVerticalSync (h : Head) (s : State) : Out := .next <|
  s.modHead h fun x => { x with framing := false, old := { x.old with unsynced := false } }

/-! ### DVALID (R194 to R196) -/

/-- The conditions of R194 at a tick, with R196's after a cleared DVSTOP. -/
def State.dvOk (s : State) (h : Nat) : Bool :=
  let x := s.head h
  let live := (List.range 16).filter fun n => (x.win n).live
  let view := s.inRefugeView h
  let m := s.modeNow
  s.flag (F.HEAD_CHK_CTRL_DVEN h) && s.running h && !s.frozen h
    && (m == 2 || m == 3 || (m == 5 && view && !s.flag F.CFG_STATUS_DFLT))
    && (!view || s.flag (F.HEAD_CHK_CTRL_RFGDV h))
    && !s.flag (F.HEAD_CHK_STATUS_DVSTOP h) && !s.flag (F.HEAD_EVT_STATUS_ABORTTRIP h)
    && !live.isEmpty && live.all (fun n => !s.stale h n && !natBit x.dvNeed n) && !x.dvArm

/-- DVALID_TICK: an edge, the drive low after a release, or a release. The half-period of the register counts from here. -/
def execDvalidTick (h : Head) (s : State) : Out := .next <|
  if !s.pclkOn then s
  else
    let s := s.dvRestart h
    let old := (s.head h).dvalid
    if s.dvOk h then
      let s := s.modHead h fun x => { x with dvalid := some (match old with | some b => !b | none => false) }
      s.put (F.HEAD_CHK_STATUS_DVRUN h) old.isSome.toNat
    else (s.modHead h fun x => { x with dvalid := none }).off (F.HEAD_CHK_STATUS_DVRUN h)

end Sys2Proof.Machine
end

