-- ==== Sys2Proof/Machine/Boot.lean ====
section
/-! DEFINITION. Boot (R50 to R78, R206, R244): from reset release over the march, the slots and their trial to the first
picture; the factory default image; and the state at the CC_CODE entry (R132). -/

namespace Sys2Proof.Machine

def State.setPhase (s : State) (p : BootPhase) : State := { s with boot := { s.boot with phase := p } }

/-! ### Step 1 (R55, R206) -/

/-- The board has brought bank D's supply into a window (R381, R382). -/
def State.bankD (s : State) : Bool := s.bankUp 3

/-- RESET_RELEASE: every reset source is released, the boot-select inputs are sampled and both core PLLs start. While bank D is in
no window the N1024 holds itself in reset (R381). VSEL is high since the reset (R205). -/
def execResetRelease (sel : BitVec 2) (pcieEn : Bool) (s : State) : Out := .next <|
  let s := { s with pins := { s.pins with resetLow := false } }
  if s.boot.phase != .inReset || s.mode.thermHold || s.mode.pinHold || s.mode.pfwHold || !s.bankD then s
  else
    let s := (((s.put F.CFG_STATUS_BOOTSEL sel.toNat).vselTo true).on F.SYS_STATUS_COREPG).on F.SYS_CLK_STATUS_REFOK
    { s.put F.PCIE_STATUS_STRAP pcieEn.toNat with boot := { s.boot with phase := .started, sel := sel.toNat } }

/-! ### Steps 3 and 4: repair, march, built-in test (R50, R244) -/

/-- Every engine that the defects fence, by physical number. -/
def fencedBy (d : Defects) : List Nat :=
  (List.range 1024).filter fun p => d.engines.contains p || d.ridges.contains (p / 8)

/-- The bit of STORE_BOOT_FAIL of the memory that holds byte k, if it has one (R244, R246). -/
def bootFailBit (k : Nat) : Option Nat :=
  if inStore k then some (bankOf k)
  else match classOf k with
    | some 4 => some 16 | some 5 => some 17 | some 6 => some 18
    | _ => none

/-- The march leaves every on-chip memory zero, and shows what it found. A failing cell of a memory of STORE_BOOT_FAIL stays. -/
def State.bootMarch (s : State) (d : Defects) : State :=
  let fs := fencedBy d
  let cells := d.cells.filter fun c => (bootFailBit c.1).isSome
  let fails := w32 (maskOf 19 fun b => d.memories.getLsbD b || cells.any fun c => bootFailBit c.1 == some b)
  let s := ((s.put F.CFG_FUSE_REPAIRS d.repairs.toNat).wr R.STORE_BOOT_FAIL fails).put F.CFG_STATUS_STAGE 1
  let s := s.clearKeys fun k => decide (0x10000 ≤ k ∧ (k < 0x80000000 ∨ 0x100000000 ≤ k))
  let s := s.forEach 32 fun k s => s.wr (R.ARRAY_FENCE k) (w32 (maskOf 32 fun b => fs.contains (32 * k + b)))
  let s := s.put F.ARRAY_SPARES_FENCED (min fs.length 255)
  { s with boot := { s.boot with fenced := fs, cells := cells }, undef := [] }

/-! ### The factory default image (R72) -/

/-- Registers of head 0 in the default image: 1024 × 768 at 60 Hz, single-link LVDS, 65 MHz (R72, R162). The porches and
sync widths are those of the VESA timing of that size and rate (PRESUMED). -/
def defaultHead : List (Word × Word) :=
  [(0x40100310, 0x04000018), (0x40100314, 0x008800A0), (0x40100318, 0x03000003), (0x4010031C, 0x0006001D),
   (0x40100324, 0x003E6666), (0x40100328, 0x00000018), (0x40100300, 0x00000004)]

/-- The console's bank and its bytes; what it shows is a free value (DESIGN CHOICE: RGB565, one bank in size). -/
def consoleBank : Nat := 15
def consoleBytes : List Byte := (List.range 0x40000).flatMap fun i => leBytes 2 (Config.consolePixel i).toNat

/-- The address the ROM's own loop runs at, which no rule states. -/
def State.romLoop (s : State) : State :=
  { s with cc := { pc := w32 (Config.pick s.freeCtr) &&& 0xFFFC, vbase := 0xFC00, sysent := 0xFBFC, parked := false } }.draw

/-- The loader takes the default image. -/
def State.defaultImage (s : State) : State :=
  let s := (((s.put F.CFG_STATUS_STAGE 4).on F.CFG_STATUS_DFLT).wr R.CFG_IMAGE_ID 0xFFFFFFFF).on F.SYS_REFUGE_CAUSE_DFLT
  let s := s.fill (bankBase consoleBank) consoleBytes
  let s := (s.put (F.STORE_OWNER_OWNER consoleBank) 0x3F).on (F.STORE_OWNER_LOCK consoleBank)
  let d : RefugeDesc := { dest := w32 (bankBase consoleBank), width := 1024, height := 256, fmt := 2, stride := 2048, regs := [] }
  let s := (s.modHead 0 fun x => { x with refuge := some d }).listWrites defaultHead
  let s := { s with boot := { s.boot with slot := 2 } }.romLoop
  (((s.setEn 0 true).startHead 0).put F.CFG_STATUS_STAGE 6).setPhase .heads

/-! ### Slots (R55, R58, R60, R65, R73) -/

/-- The trial of a slot begins. -/
def State.startSlot (s : State) (n : Nat) : State :=
  { s.put F.CFG_STATUS_STAGE (2 + n) with boot := { s.boot with phase := .streaming, slot := n } }

/-- The slot being tried fails with a reason of R73: the other slot, or the default image. What its header said of DRAM is void. -/
def State.failSlot (s : State) (reason : Nat) : State :=
  let n := s.boot.slot
  let s := s.put (if n = 0 then F.CFG_STATUS_REASON_A else F.CFG_STATUS_REASON_B) reason
  let s := { s with boot := { s.boot with tried := s.boot.tried + 1, dramBytes := 0 } }
  if s.boot.tried < 2 then s.startSlot (1 - n) else s.defaultImage

/-- What BOOT_SEL asks for after the march (R55). -/
def State.bootSelect (s : State) : State :=
  match s.boot.sel with
  | 0 => s.startSlot 0
  | 1 => s.startSlot 1
  | 2 => ((s.put F.CFG_STATUS_REASON_A 0xF).put F.CFG_STATUS_REASON_B 0xF).defaultImage
  | _ => (s.romLoop.modCore .cc fun x => { x with started := true, ready := s.now }).setPhase .waitLoop

/-- Steps 3 and 4, and what BOOT_SEL asks for. -/
def State.bootSteps (s : State) (d : Defects) : State := (s.bootMarch d).bootSelect

/-- Step 2: the clocks run. With RSTHALT = 1 the control core halts before its first instruction (R360). -/
def State.bootClocks (s : State) (d : Defects) : State :=
  if s.flag F.DBG_CTRL_ATTACH && s.flag F.DBG_CTRL_RSTHALT then
    { s with cc := { parked := false, halted := true, reason := 5 },
             boot := { s.boot with phase := .heldAtReset, defects := d } }
  else s.bootSteps d

/-- The wake event of the HOLD has come. -/
def State.holdEnds (s : State) : Bool := if s.mode.byRequest then s.mode.wakePending else !s.mode.pfwLow

/-- HOLD ends, and the core PLLs have started (R217 step 1). -/
def State.resumePlls (s : State) : Bool :=
  s.modeNow == 4 && s.mode.entryStep == 0 && s.mode.resumeStep == 0 && s.mode.emul.isNone && s.holdEnds
    && s.rd R.SYS_RESUME_VEC != 0

/-- The PLL has started and not locked. -/
def State.pllWaits (s : State) (p : CorePll) : Bool :=
  (s.resumePlls && !s.flag (match p with | .eclk => F.SYS_CLK_STATUS_ECLKLOCK | .pclk => F.SYS_CLK_STATUS_PCLKLOCK)) ||
  s.boot.phase == .started || (p == .eclk && s.boot.phase == .pclkLocked) || (p == .pclk && s.boot.phase == .eclkLocked)

/-- CORE_PLL_LOCK_TIMEOUT (R206): the core domain stays in reset, and a lock counts only after the retry. -/
def execCorePllLockTimeout (p : CorePll) (s : State) : Out := .next <|
  if s.pllWaits p then
    { s with boot := match p with
        | .eclk => { s.boot with eclkFail := true }
        | .pclk => { s.boot with pclkFail := true } }
  else s

/-- CORE_PLL_RETRY (R206): 1 ms after the failure the PLL starts again. -/
def execCorePllRetry (p : CorePll) (s : State) : Out := .next <|
  match p with
  | .eclk => { s with boot := { s.boot with eclkFail := false } }
  | .pclk => { s with boot := { s.boot with pclkFail := false } }

/-- FLASH_NO_ANSWER (R58). -/
def execFlashNoAnswer (s : State) : Out := .next <| if s.boot.phase == .streaming && !s.cc.halted then s.failSlot 1 else s

/-! ### Step 8: spares and the tree (R51, R52, R69, R70) -/

/-- Fenced logical engines in ascending order take the lowest free spare of their ridge: the map, and who is left out. -/
def assignSpares (fenced spares : List Nat) : List Nat → List (Nat × Nat) × List Nat
  | [] => ([], [])
  | e :: es =>
    let r := assignSpares fenced spares es
    let used := r.1.map (·.2)
    match (List.range 8).find? fun i =>
        spares.contains (e / 8 * 8 + i) && !fenced.contains (e / 8 * 8 + i) && !used.contains (e / 8 * 8 + i) with
    | some i => ((e, e / 8 * 8 + i) :: r.1, r.2)
    | none => (r.1, e :: r.2)

def State.setSpares (s : State) (spares : List Nat) : State :=
  let fs := s.boot.fenced
  let r := assignSpares fs spares (fs.filter fun p => !spares.contains p).reverse
  let s := r.1.foldl (fun t e => { t with phys := tabSet id t.phys e.1 e.2 }) s
  let s := (s.put F.ARRAY_SPARES_DECLARED spares.length).put F.ARRAY_SPARES_USED r.1.length
  { s with boot := { s.boot with spares := spares, lostLogical := r.2 } }

/-- The unit tree. -/
def State.buildTree (s : State) (t : Tree) : State :=
  t.foldl (fun z u => z.setUnit u.1 (some u.2)) { s with units := [] }

/-- The variant binds a logical engine that is left without a physical one. -/
def State.lacksEngine (s : State) (t : Tree) (v : Variant) : Bool :=
  v.binds.any fun b => match t.find b.unit with
    | some x => s.boot.lostLogical.contains x.engine
    | none => false

/-- CFG_PROF_p_INFO. -/
def profInfo (n l : Option Variant) : Word :=
  match n, l with
  | some a, some b => w32 (2 ^ 31 + 2 ^ 30 + max a.reload b.reload * 2 ^ 16 + b.heads * 16 + a.heads)
  | some a, none => w32 (2 ^ 31 + a.reload * 2 ^ 16 + a.heads)
  | none, some b => w32 (2 ^ 30 + b.reload * 2 ^ 16 + b.heads * 16)
  | none, none => 0

/-- The programs of a variant's leaves. -/
def Img.codes (m : Img) (v : Variant) : List (Nat × List Word) :=
  v.binds.filterMap fun b => ((m.sectWords 2 b.program).bind readProgram).map fun c => (b.unit, c)

/-! ### Step 9: owners, register lists, heads (R56, R68, R233) -/

def State.setOwners (s : State) (ws : List Word) : State :=
  (ws.zipIdx).foldl (fun t e => (t.put (F.STORE_OWNER_OWNER e.2) (bitsOf e.1 0 6)).put (F.STORE_OWNER_LOCK e.2)
    (bitsOf e.1 30 1)) s

def Img.list (m : Img) (t i : Nat) : List (Word × Word) := pairs ((m.sectWords t i).getD [])

/-- EN of every head that the variant enables, and its start. -/
def State.startHeads (s : State) (heads : Nat) : State :=
  s.forEach 4 fun h s => if natBit heads h then (s.setEn h true).startHead h else s

/-- The control core as the ROM leaves it for the entry (R132); it does not execute yet. -/
def ccEntry (m : Img) : CoreSt :=
  let ws := (m.sectWords 3 0).getD []
  let split := m.hdr.split == 1
  { pc := ws.getD 0 0, sp := ws.getD 1 0, rsp := if split then ws.getD 2 0 else 0, vbase := 0xFC00, sysent := 0xFBFC,
    split := split, parked := false }

/-- Steps 8 and 9 for an image that has passed every check. -/
def State.applyImage (s : State) (m : Img) (auth : Bool) : State :=
  let h := m.hdr
  let t := m.tree.getD []
  let p := h.defProf
  let s := ((s.put F.CFG_STATUS_AUTH auth.toNat).put F.CFG_STATUS_SLOT s.boot.slot).put F.CFG_STATUS_STAGE 5
  let s := ((s.wr R.CFG_IMAGE_ID h.id).wr R.CFG_IMAGE_BUILD h.build).put F.CFG_PROFILE_PROFILE p
  let s := s.forEach 8 fun q s => s.wr (R.CFG_PROF_INFO q) (profInfo (m.variant q false) (m.variant q true))
  let s := { s with boot := { s.boot with cache := h.cache, splitStack := h.split == 1, ccRsp := (ccEntry m).rsp,
                                          sections := m.sects.map fun (e : Sect) => (e.type, e.index, e.off, e.len, e.crc.toNat) } }
  let s := (s.setSpares m.spares).buildTree t
  let n := (m.variant p false).getD {}
  let l := (m.variant p true).getD {}
  let lean := s.lacksEngine t n
  let s := if lean then (s.on F.ARRAY_SPARES_LEANVAR).on F.SYS_LEAN_CAUSE_SPARE else s
  let s := if lean && s.lacksEngine t l then s.on F.SYS_REFUGE_CAUSE_SPARE else s
  let v := if lean then l else n
  let s := (s.put F.CFG_PROFILE_STATUS_ACTIVE p).put F.CFG_PROFILE_STATUS_LEAN lean.toNat
  let s := s.placeVariant v (m.codes v) lean fun _ => true
  let s := s.setOwners m.owners
  let s := s.forEach 4 fun i s => s.modHead i fun x => { x with refuge := (m.refuge i).map fun r => r.1 }
  let s := s.forEach 4 fun i s => s.listWrites (m.list 5 i)
  let s := ((s.listWrites (m.list 6 0)).listWrites (m.list 7 0)).listWrites v.regs
  (({ s with cc := ccEntry m }.startHeads v.heads).put F.CFG_STATUS_STAGE 6).setPhase .heads

/-! ### Steps 5 to 7 (R56, R60, R65) -/

/-- The whole slot has been read, and DRAM training, where the header asks for it, has ended: the checks in their order. -/
def State.trySlot (s : State) (m : Img) : State :=
  if m.hdr.usesDram && !s.boot.dramOk then (s.stream { m with hdr := { m.hdr with dram := 0 } }).failSlot 9
  else
    let s := { s with boot := { s.boot with dramBytes := m.hdr.dramBytes } }.stream m
    let a := m.authOk s.fuses
    if !m.crcOk then s.failSlot 5
    else if !m.sectionsOk then s.failSlot 6
    else if !a.1 then s.failSlot 7
    else if !m.structureOk then s.failSlot 8
    else s.applyImage m a.2

/-- SECTION_STREAM_DONE: the sequencer has read what there is to read of the slot. -/
def execSectionStreamDone (s : State) : Out := .next <|
  if s.boot.phase != .streaming || s.cc.halted then s
  else match s.slotImg s.boot.slot with
    | .inl r => s.failSlot r
    | .inr m => if m.hdr.usesDram && !s.boot.dramAnswered then s.setPhase .training else s.trySlot m

/-- DRAM_TRAINING_DONE: asked for by the header of the slot being tried; it is not repeated for another slot (R57). -/
def execDramTrainingDone (ok : Bool) (s : State) : Out := .next <|
  if !(s.boot.phase == .streaming || s.boot.phase == .training) || s.boot.dramAnswered then s
  else match s.slotImg s.boot.slot with
    | .inl _ => s
    | .inr m =>
      if !m.hdr.usesDram then s
      else
        let s := { s with boot := { s.boot with dramAnswered := true, dramOk := ok } }.put F.SYS_CLK_STATUS_DRAMLOCK ok.toNat
        if s.boot.phase == .training then s.trySlot m else s

/-! ### Steps 10 and 11 (R56, R72, R201) -/

/-- A LEAN trigger is active at the end of boot: LEAN is entered from BOOT, and where the normal variant is placed the sequencer
brings the lean one into force (R77, R201, R210). -/
def State.bootLean (s : State) : State := s.leanStart

/-- BOOT_HEADS_UP: every head that was to start is up or has failed to; the control core leaves the ROM, and the mode that
follows BOOT is taken. Of the default image the core runs the ROM's loop, and AUD_MUTE_N stays low. -/
def execBootHeadsUp (s : State) : Out := .next <|
  if s.boot.phase != .heads || s.cc.halted || heads4.any fun h => (s.head h).phase == .locking || (s.head h).phase == .training then s
  else
    let dflt := s.flag F.CFG_STATUS_DFLT
    let s := (s.on F.CFG_STATUS_LOADED).setPhase .picture
    let s := s.modCore .cc fun x => { x with started := true, ready := s.now }
    let s := { s with aud := { s.aud with unmuted := !dflt }, prg := { s.prg with first := true } }
    if dflt || s.flag F.SYS_REFUGE_CAUSE_SPARE then s.refugeEnter
    else if s.leanActive then s.bootLean
    else s.modeDone 2

/-- FIRST_PICTURE: the first frame of every enabled head has left the pads, `us` microseconds after reset release. -/
def execFirstPicture (us : Word) (s : State) : Out := .next <|
  if s.boot.phase == .picture then ((s.put F.CFG_STATUS_STAGE 7).wr R.CFG_BOOT_TIME us).setPhase .done else s

end Sys2Proof.Machine
end

