-- ==== Sys2Proof/Machine/Modes.lean ====
section
/-! DEFINITION. The mode events (R200 to R226, R375, R386): LEAN triggers, thermal and supply levels, HOLD and DORMANT entry,
retention and resume, wake sources, and the resets that come from outside. -/

namespace Sys2Proof.Machine

/-! ### LEAN (R205, R208 to R212) -/

/-- The trigger of bit i of SYS_LEAN_CAUSE. -/
def State.leanBit (s : State) (i : Nat) : State := s.leanTrigger ⟨R.SYS_LEAN_CAUSE, 0, 8⟩ i

/-- LEAN_ENTRY: the triggers of the causes named. -/
def execLeanEntry (cause : BitVec 8) (s : State) : Out := .next <|
  if !s.pclkOn then s else ((List.range 8).filter cause.getLsbD).foldl State.leanBit s

/-- The clocks double on the way from LEAN to FULL, and the normal variant follows (R211). -/
def State.raiseToFull (s : State) : State :=
  let s := s.setHalf false
  if !s.prof.leanActive && s.prof.target.isNone then (s.wr R.SYS_LEAN_CAUSE 0).modeDone 2
  else s.profSwitch s.profOf false (some 2)

/-- CLOCK_RAISE (R205): SETTLE has elapsed and COREPG = 1. -/
def execClockRaise (s : State) : Out := .next <|
  match s.mode.raise with
  | none => s
  | some m =>
    let s := { s.on F.SYS_STATUS_COREPG with mode := { s.mode with raise := none } }
    if s.modeNow = 5 then (s.setHalf false).startExit m
    else s.raiseToFull

/-- A level bit of SYS_STATUS after a sample t in quarter degrees: set above the threshold, cleared at or below the threshold
minus HYST. -/
def thermLevel (old : Bool) (t : Int) (limit hyst : Nat) : Bool :=
  decide (4 * (limit : Int) < t) || (old && decide (4 * ((limit : Int) - hyst) < t))

/-- A sample in a running mode (R208, R209, R212). A REFUGE trigger of the same sample wins over a LEAN trigger (R203). -/
def State.thermSample (s : State) (t : Int) : State :=
  let hyst := s.get F.SYS_THERM_HYST
  let wasL := s.flag F.SYS_STATUS_THERMLEAN
  let wasC := s.flag F.SYS_STATUS_THERMCRIT
  let lean := thermLevel wasL t (s.get F.SYS_THERM_LEAN) hyst
  let crit := thermLevel wasC t (s.get F.SYS_THERM_CRIT) hyst
  let s := (s.put F.SYS_STATUS_THERMLEAN lean.toNat).put F.SYS_STATUS_THERMCRIT crit.toNat
  let s := if crit && !wasC then (s.on F.SYS_EVT_STATUS_THERMCRIT).refugeTrigger F.SYS_REFUGE_CAUSE_THERMCRIT else s
  if lean && !wasL then (s.on F.SYS_EVT_STATUS_THERMLEAN).leanTrigger F.SYS_LEAN_CAUSE_THERM 0 else s

/-- THERMAL_SAMPLE: t is signed, in 0.25 °C. -/
def execThermalSample (t : BitVec 16) (s : State) : Out := .next <|
  if s.mode.thermHold then
    if t.toInt ≤ 460 then { s with mode := { s.mode with thermHold := false } } else s
  else if s.boot.phase == .inReset || s.modeNow == 4 || s.modeNow == 0 then s
  else
    let s := s.put F.SYS_TEMP_TEMP t.toNat
    if 540 ≤ t.toInt then
      let s := s.deviceReset F.SYS_RESET_CAUSE_THERM
      { s with mode := { s.mode with thermHold := true } }
    else s.thermSample t.toInt

/-- SUPWARN (R209): VDD_CORE has stayed below 95 % of 0.80 V for 10 µs, in FULL. -/
def execSupwarn (s : State) : Out := .next <|
  if s.modeNow = 2 ∧ !s.flag F.SYS_STATUS_SUPWARN then
    (((s.on F.SYS_STATUS_SUPWARN).off F.SYS_STATUS_COREPG).on F.SYS_EVT_STATUS_SUPWARN).leanTrigger F.SYS_LEAN_CAUSE_SUPPLY 0
  else s

/-- SUPWARN_CLEAR (R209): 1 ms above that level. -/
def execSupwarnClear (s : State) : Out := .next <|
  if s.flag F.SYS_STATUS_SUPWARN then (s.off F.SYS_STATUS_SUPWARN).on F.SYS_STATUS_COREPG else s

/-! ### PFW_N (R213, R214, R218) -/

/-- PFW_N recognised low during HOLD entry, in HOLD or on the way out of it. -/
def State.pfwInHold (s : State) : State :=
  if decide (0 < s.mode.resumeStep) && s.flag F.SYS_HOLD_CTRL_PFWEN then s.enterDark 4 false
  else { s with mode := { s.mode with pfwSeen := true } }

/-- PFW_N_LOW. It is ignored in reset and in DORMANT, and restarts BOOT. -/
def execPfwNLow (s : State) : Out := .next <|
  if s.boot.phase == .inReset || s.modeNow == 0 then s
  else
    let en := s.flag F.SYS_HOLD_CTRL_PFWEN
    let s : State := { s.on F.SYS_EVT_STATUS_PFW with mode := { s.mode with pfwLow := true } }
    if s.modeNow = 4 ∨ (s.mode.entryStep ≠ 0 ∧ s.get F.SYS_MODE_TARGET = 4) then s.pfwInHold
    else if !en then s
    else if s.modeNow = 1 then
      let s := s.deviceReset F.SYS_RESET_CAUSE_PFWBOOT
      { s with mode := { s.mode with pfwHold := true } }
    else s.enterDark 4 false

/-- PFW_N_HIGH: a BOOT that was to restart may; a requested HOLD that has seen PFW_N low ends. -/
def execPfwNHigh (s : State) : Out := .next <|
  if s.boot.phase == .inReset then { s with mode := { s.mode with pfwLow := false, pfwHold := false } }
  else if s.modeNow = 0 then s
  else
    { s with mode := { s.mode with pfwLow := false, wakePending := s.mode.wakePending || (s.mode.byRequest && s.mode.pfwSeen) } }

/-! ### Steps 4 and 5 of R214, and R222 -/

/-- Step 4: everything that partners see and that step 1 left running stops; the pins latch what their output stages do (R351);
hand-overs complete (R231), accesses they held are no more, and a scrub ends (R242). -/
def State.darkStep4 (s : State) : State :=
  let s := ((s.scrubAbort.stopBlit).stopCameras).linkDown
  let s := s.forEach 8 fun n s => (s.off (F.DMA_CH_STATUS_BUSY n)).off (F.DMA_CH_STATUS_ARMED n)
  let s := s.forEach 16 fun n s => if s.flag (F.STORE_OWNER_BUSY n) then s.ownerDone n false else s
  let l := (List.range 96).map s.driveOf
  { s with pins := { s.pins with latch := some l }, mode := { s.mode with entryStep := 4 }, waiting := [] }

/-- HOLD_DELAY_EXPIRY. -/
def execHoldDelayExpiry (s : State) : Out := .next <| if s.mode.entryStep = 1 then s.darkStep4 else s

/-- Bank n is retained in HOLD (R215). -/
def State.retained (s : State) (n : Nat) : Bool := natBit (s.get F.SYS_HOLD_RET_RET) n || s.flag (F.STORE_OWNER_LOCK n)

/-- The core domain is off: the PLLs stop, and what is not retained is lost. -/
def State.holdPower (s : State) : State :=
  let s := ((s.off F.SYS_CLK_STATUS_ECLKLOCK).off F.SYS_CLK_STATUS_PCLKLOCK).off F.SYS_CLK_STATUS_DRAMLOCK
  s.forEach 16 fun n s => if s.retained n then s else s.loseBank n

/-- The reset state of every multifunction pin (R222, R351). -/
def State.resetPins (s : State) : State :=
  { s with regs := tabKeep (fun a => !(decide (0x40150000 ≤ a ∧ a < 0x40160000)) || a == R.PIN_BANK_STATUS) s.regs,
           pins := { s.pins with latch := none } }

/-- A wake from DORMANT: a full BOOT (R222). -/
def State.dormantWake (s : State) : State := s.deviceReset F.SYS_RESET_CAUSE_WAKE

/-- HOLD_ENTRY_COMPLETE: step 5, or the end of DORMANT entry; an emulated mode keeps its clocks and domains (R375). -/
def execHoldEntryComplete (s : State) : Out := .next <|
  if s.mode.entryStep ≠ 4 then s
  else
    let m := s.get F.SYS_MODE_TARGET
    let s := (s.modeDone m).vselTo false
    let s := { s with mode := { s.mode with entryStep := 0 } }
    if m = 4 then (if s.mode.emul.isSome then s else s.holdPower)
    else
      let s := s.resetPins
      let s := if s.mode.emul.isSome then s
        else (((s.off F.SYS_CLK_STATUS_ECLKLOCK).off F.SYS_CLK_STATUS_PCLKLOCK).off F.SYS_CLK_STATUS_DRAMLOCK).off
          F.SYS_CLK_STATUS_REFOK
      if s.mode.wakePending then s.dormantWake else s

/-! ### What HOLD leaves (R215, R216) -/

/-- A register word after HOLD: RW fields keep their value, and every field of SYS, CFG and ARRAY; of STORE_OWNER_n all but
BUSY; timers restart from zero. The supply levels and the PCIE_EN strap are no state of the core domain. -/
def holdWord (a : Nat) (w : Word) : Word :=
  if decide (0x40000000 ≤ a ∧ a < 0x40030000) || a == R.PIN_BANK_STATUS then w
  else if R.STORE_OWNER 0 ≤ a ∧ a < R.STORE_OWNER 16 then w &&& 0x7FFFFFFF
  else if 0x400A0000 ≤ a ∧ a < 0x400A0800 ∧ a % 0x100 = 0x14 then 0
  else if a = R.PCIE_STATUS then w &&& 0x80000000
  else match regRow a with
    | some r => (w &&& w32 r.rw) ||| (regReset a &&& ~~~(w32 r.rw))
    | none => w

def State.holdRegs (s : State) : State :=
  { s with regs := s.regs.foldl (fun t e => tabSet regReset t e.1 (holdWord e.1 e.2)) [] }

/-- General registers whose values are lost. -/
def lostRegs (k : Nat) : Tab Word := (List.range 31).foldl (fun t i => tabSet (dflt 0) t (i + 1) (Config.lostReg (k + i))) []

/-- A core's registers are lost (R216): each holds a free value in the bits that it has; a reserved bit reads zero as ever, and an
engine's STATUS has PRIV = 1 and IE = 0 (R80, R81, R120, R121, R133). Whether it is parked or halted, and its unit's settings, are
no registers of it. -/
def CoreSt.lost (x : CoreSt) (se : Bool) (k now : Nat) : CoreSt :=
  let f := fun i => Config.lostReg (k + 31 + i)
  let st := fun i => f i &&& 0xF0000F07
  let at4 := fun i => f i &&& ~~~(3 : Word)
  { x with g := lostRegs k, pc := at4 0, status := if se then (st 1 &&& ~~~(1 : Word)) ||| 2 else st 1, bnk := f 2 &&& 0xFFFF,
           sp := f 3, rsp := f 4, lc0 := f 5, ls0 := f 6, le0 := f 7, lc1 := f 8, ls1 := f 9, le1 := f 10, mlo := f 11,
           mhi := f 12, epc := at4 13, estat := st 14, ecause := f 15 &&& 0x00FF07FF, eaddr := f 16,
           vbase := f 17 &&& ~~~(0x3FF : Word), spc := at4 18, sstat := st 19, ssp := f 20, sysent := at4 21, dfpc := at4 22,
           resv := none, products := [], ready := now, barp := false, started := false, asleep := false, haltReq := none,
           lockup := false, stalled := none, skipCmp := none, inRom := false, parkReq := false }

/-- A layer after HOLD: the set in force stays. -/
def holdLayers (t : Tab LayerSt) : Tab LayerSt := t.foldl (fun z e => tabSet (dflt {}) z e.1 { act := e.2.act }) []

/-- A head after HOLD: stopped, with its profile settings, its refuge surface, the sets in force and the settings of its last full
link training (R217). -/
def HeadSt.afterHold (x : HeadSt) : HeadSt :=
  { layers := holdLayers x.layers, lead := x.lead, leadPend := x.leadPend, refuge := x.refuge, leanVar := x.leanVar,
    halfref := x.halfref, resumeRun := x.resumeRun, trained := x.trained }

/-- Queues are FIFOs: empty. FACE_FAULT stays. -/
def State.emptyQueues (s : State) : State :=
  s.unitList.foldl (fun t e => t.modUnit e.1 fun x => { x with queue := [] }) s

/-- Audio after HOLD: coefficients in force stay, everything that counts or filters restarts. -/
def State.audAfterHold (s : State) : State :=
  let bus := s.aud.bus.foldl (fun z e => tabSet (dflt {}) z e.1 ({ coef := e.2.coef } : BusSt)) []
  let s := { s with aud := { bus := bus } }.put F.AUD_STATUS_MCLKEXT (s.get F.AUD_CTRL_CLKSRC)
  s.forEach 38 fun n s => if s.flag (F.AUD_V_CTRL_EN n) then s.resetSource n else s

/-- The receiver and the MAC restart at the first buffer or descriptor of their rings. -/
def State.ringsRestart (s : State) : State :=
  let s := s.forEach 2 fun n s =>
    if s.flag (F.CAM_CTRL_EN n) && s.camCheck n == 0 then s.on (F.CAM_STATUS_RUN n) else s
  s.forEach 2 fun n s =>
    ((s.put (F.ETH_STATUS_TXRUN n) (s.get (F.ETH_CTRL_TXEN n))).put (F.ETH_STATUS_RXRUN n) (s.get (F.ETH_CTRL_RXEN n))).setEth n
      { poll := s.flag (F.ETH_CTRL_TXEN n) }

/-- Keys of engine private data and of the line store: the resume writes them to zero. -/
def zeroedByResume (k : Nat) : Bool :=
  decide (0x30000000 ≤ k ∧ k < 0x30180000) || (decide (0x20000000 ≤ k ∧ k < 0x21000000) && decide (0x80000 ≤ k % 0x100000))

/-- R216 and the zeroing of step 2 of R217. -/
def State.afterHold (s : State) : State :=
  let dr := s.flag F.DBG_MEM_CTRL_BUSY
  let s := s.holdRegs.clearKeys zeroedByResume
  let s := s.forEach 4 fun h s => s.modHead h HeadSt.afterHold
  let s := s.forEach 4 fun h s => s.forEach 8 fun l s => s.wr (R.HEAD_L_ACT_BASE h l) (s.layer h l).act.base
  let k := s.freeCtr
  let s := s.eng.foldl (fun t e => t.modEngine e.1 fun x => x.lost true (k + 64 * e.1 + 64) t.now) s
  let s := { s with cc := s.cc.lost false k s.now, freeCtr := k + 70000 }
  let s := { s with cycBase := 0, cycT0 := s.now, store := {}, blit := {}, dma := [], dmaLast := 7, cam := [],
                    icuStack := [], icuFilt := [], capf := [],
                    wdtSvc := false, adcSlot := 0, prg := {}, eth := [], uart := [], spi := [], i2c := [], qspi := {},
                    pcie := { s.pcie with pend := 0, sent := none } }
  let s := (s.emptyQueues.audAfterHold).ringsRestart
  (s.put F.DBG_MEM_CTRL_BUSY dr.toNat).put F.DBG_FUSE_STATUS_BUSY s.dbg.fuse.isSome.toNat

/-! ### Resume (R213, R217, R218) -/

/-- The control core as the ROM leaves it for SYS_RESUME_VEC: R132 with SP = SYS_RESUME_SP. -/
def State.resumeCore (s : State) : CoreSt :=
  { s.cc with pc := s.rd R.SYS_RESUME_VEC, status := 2, sp := s.rd R.SYS_RESUME_SP,
              rsp := if s.boot.splitStack then s.boot.ccRsp else s.cc.rsp, ssp := 0, vbase := 0xFC00, sysent := 0xFBFC,
              split := s.boot.splitStack, started := true, parked := false }

/-- Step 4: a head that was running starts again, a clone on its source's clock; its settings passed R161 before. An eDP link
trains with the settings of its last full training. -/
def State.resumeHead (s : State) (h : Nat) : State :=
  if !(s.head h).resumeRun then s
  else
    let s := s.modHead h fun x => { x with fastTrain := true }
    if s.isClone h then (s.on (F.HEAD_STATUS_PLLLOCK h)).phyStart h else s.modHead h fun x => { x with phase := .locking }

/-- Steps 1 to 4 of R217, once both core PLLs have locked: the clocks and VSEL take the previous mode's values. -/
def State.holdResume (s : State) : State :=
  if s.modeNow ≠ 4 ∨ s.mode.entryStep ≠ 0 ∨ s.mode.resumeStep ≠ 0 ∨ !s.holdEnds then s
  else if s.rd R.SYS_RESUME_VEC = 0 then s.deviceReset F.SYS_RESET_CAUSE_PFWBOOT
  else if s.boot.eclkFail ∨ s.boot.pclkFail then s
  else
    let p := s.mode.prev
    let s := ((s.setHalf (p != 2)).vselTo (p == 2)).on F.SYS_STATUS_COREPG
    let s := ((s.on F.SYS_CLK_STATUS_ECLKLOCK).on F.SYS_CLK_STATUS_PCLKLOCK).put F.SYS_CLK_STATUS_DRAMLOCK s.boot.dramOk.toNat
    let s := (s.on F.SYS_MODE_TRANS).put F.SYS_MODE_TARGET p
    let s := s.afterHold
    let s := { s with cc := s.resumeCore, pins := { s.pins with latch := none }, mode := { s.mode with resumeStep := 3 } }
    s.forEach 4 fun h s => s.resumeHead h

/-- A leaf restarts on resume unless a fault or a command parked it (R216, R217). -/
def resumeStarts (x : CoreSt) : Bool := !x.faulted && !x.cmdParked

/-- The variant in force takes up its work again. -/
def State.resumeLeaves (s : State) : State :=
  s.prof.bound.foldl (fun t b =>
    match t.unit? b.unit with
    | some x => if resumeStarts (t.engine x.engine) then t.startBind b.unit else t
    | none => t) s

/-- The register lists of a switch that HOLD found unfinished, for the heads that had not switched. -/
def State.resumeLists (s : State) (v : Variant) : State :=
  let todo := if s.prof.plan.isNone then heads4 else s.prof.todo
  let s := todo.foldl (fun t h => t.listWrites (headPart v h)) s
  let s := if s.prof.plan.isNone || !s.prof.othersDone then s.listWrites (otherPart v) else s
  s.forEach 4 fun h s =>
    if !natBit v.heads h then (if (s.head h).phase == .stopped then s else s.stopOne h).setEn h false
    else if (s.head h).phase == .stopped && !s.flag (F.HEAD_CTRL_EN h) then (s.setEn h true).startHead h else s

/-- A switch that was pending is finished (R76, R217); a section or program that no longer fits its check abandons it. -/
def State.resumeSwitch (s : State) : State :=
  match s.prof.target with
  | none => s.resumeLeaves
  | some (p, lean) =>
    match s.readPlan p lean with
    | some (v, codes) =>
      let s := (s.placeVariant v codes lean resumeStarts).resumeLists v
      { s with prof := { s.prof with todo := [], reload := [], reloaded := [] } }.profEnd 0
    | none => (s.profEnd 3).resumeLeaves

/-- A LEAN trigger still active on a resume to FULL starts LEAN entry (R203). -/
def State.leanAgain (s : State) : State :=
  if s.modeNow ≠ 2 ∨ !s.leanActive then s
  else if s.flag F.SYS_STATUS_SUPWARN then s.leanTrigger F.SYS_LEAN_CAUSE_SUPPLY 0
  else if s.flag F.SYS_LEAN_CAUSE_SPARE then s.leanTrigger F.SYS_LEAN_CAUSE_SPARE 0
  else s.leanTrigger F.SYS_LEAN_CAUSE_THERM 0

/-- RESUME_COMPLETE, `us` microseconds after the resume began: step 5. The heads start their rasters as their PLLs and links
come up (RASTER_START). A resume that a LEAN trigger has turned from FULL to LEAN lowers the clocks and VSEL here, with the lean
variant in force; where that could not be read, REFUGE follows as at the end of R210 (log 99). -/
def execResumeComplete (us : Word) (s : State) : Out := .next <|
  if s.modeNow ≠ 4 ∨ s.mode.resumeStep = 0 then s
  else
    let s := s.resumeSwitch.resumePartners
    let m := s.mode.prev
    let s := if m = 3 then (s.setHalf true).vselTo false else s
    let s := ((s.modeDone m).on F.SYS_EVT_STATUS_RESUMED).wr R.SYS_RESUME_TIME us
    if m = 3 && !s.prof.leanActive then s.refugeTrigger F.SYS_REFUGE_CAUSE_LEANFAIL else s.leanAgain

/-! ### Wake sources (R213, R222) -/

/-- A wake source fires: in DORMANT at once, during the entry of DORMANT or of a requested HOLD when that is complete. -/
def State.wake (s : State) (src : Word) : State :=
  let t := if s.mode.entryStep ≠ 0 then s.get F.SYS_MODE_TARGET else s.modeNow
  if s.mode.wakePending || !(t == 0 || (t == 4 && s.mode.byRequest && s.mode.resumeStep == 0)) then s
  else
    let s := s.wr R.SYS_WAKE_SRC src
    if s.modeNow = 0 then s.dormantWake else { s with mode := { s.mode with wakePending := true } }

/-- WAKE_TIMER_EXPIRY. -/
def execWakeTimerExpiry (s : State) : Out := .next <| if s.flag F.SYS_WAKE_CTRL_TIMEN then s.wake 0x10 else s

/-- WAKE_PIN: WAKEi has stood at a level for 2 LFCLK periods, which wakes where PINPOL makes it the active one (R222). -/
def execWakePin (w : WakeLevel) (s : State) : Out := .next <|
  let i := w.pin.toNat
  if natBit (s.get F.SYS_WAKE_CTRL_PINEN) i && w.level == natBit (s.get F.SYS_WAKE_CTRL_PINPOL) i then s.wake (w32 (2 ^ i))
  else s

/-- PRAGUS_ACTIVITY_WAKE. -/
def execPragusActivityWake (s : State) : Out := .next <| if s.flag F.SYS_WAKE_CTRL_PRGEN then s.wake 0x100 else s

/-! ### Resets from outside (R224, R225, R386) -/

/-- POWER_ON_RESET. -/
def execPowerOnReset (s : State) : Out := .next <| s.powerOn

/-- RESET_N is low and resets the part, which then waits for its release. -/
def State.pinReset (s : State) : State :=
  let t := s.deviceReset F.SYS_RESET_CAUSE_PIN
  { t with pins := { t.pins with resetLow := true } }

/-- RESET_N_ASSERT: low for `ns` nanoseconds so far; below 100 ns it is ignored, up to 1 µs either may happen. -/
def execResetNAssert (ns : Nat) (s : State) : Out := .next <|
  if 1000 ≤ ns then s.pinReset
  else if 100 ≤ ns then (if Config.shortResetPulse s.freeCtr then s.pinReset else s).draw
  else s

end Sys2Proof.Machine
end

