-- ==== Sys2Proof/Machine/StoreEvents.lean ====
section
/-! DEFINITION. Events of the Store block: the end of a change to ON (R235), the scrubber's
rewrites and its end (R242, R243), and the end of a march (R245). -/

namespace Sys2Proof.Machine

/-- BANK_POWER_ON_DONE (R235). -/
def execBankPowerOnDone (n : BankNo) (s : State) : Out := .next <|
  if natBit (s.get F.STORE_PWR_STATUS_COMING) n then
    (s.offBit F.STORE_PWR_STATUS_COMING n).on F.STORE_STATUS_PWRDONE
  else s

/-- SCRUB_REWRITE (R243): the scrubber reaches the next word that it corrects; `ownerWrites` says that the owner port writes it
then, which cancels the rewrite. -/
def execScrubRewrite (ownerWrites : Bool) (s : State) : Out := .next <|
  if s.flag F.SCRUB_STATUS_BUSY && s.flag F.SCRUB_CTRL_FIX then
    match State.scrubNext (!ownerWrites) s.scrubLeft s.store.scrubPos s with
    | some (a, t) => t.setScrubPos a
    | none => s
  else s

/-- SCRUB_DONE (R242): the rest of the words has been read. -/
def execScrubDone (s : State) : Out := .next <|
  if s.flag F.SCRUB_STATUS_BUSY then
    (State.scrubRun (s.flag F.SCRUB_CTRL_FIX) s.scrubLeft s.store.scrubPos s).scrubEnd false
  else s

/-- The rows of 8 bytes among failing addresses, each once. -/
def failRows (l : List Nat) : List Nat := (l.map (· / 8)).eraseDups

/-- MARCH_DONE (R245): `fails` are the addresses of failing cells, of which those in the bank count. -/
def execMarchDone (fails : List Nat) (s : State) : Out := .next <|
  if !s.flag F.STORE_MARCH_STATUS_BUSY then s
  else
    let n := s.store.marchBank
    let keep := s.store.marchKeep
    let bad := fails.filter (inBank n)
    let s := s.marchContents n keep
    let s := if keep then s else s.clearResv (inBank n)
    let s := ((s.off F.STORE_MARCH_STATUS_BUSY).on F.STORE_MARCH_STATUS_DONE).on F.STORE_STATUS_MARCHDONE
    match bad with
    | [] => s
    | a :: l =>
      ((s.on F.STORE_MARCH_STATUS_FAIL).put F.STORE_MARCH_STATUS_FAILCNT (min 65535 (failRows bad).length)).wr
        R.STORE_MARCH_ADDR (w32 (l.foldl min a / 8 * 8))

end Sys2Proof.Machine
end

