-- ==== Sys2Proof/Machine/Dma.lean ====
section
/-! DEFINITION. The moves of a DMA channel (R260 to R263, R267). -/

namespace Sys2Proof.Machine

/-- SWAP on the bytes of one element (R261). -/
def dmaSwap : Nat → List Byte → List Byte
  | 1, a :: b :: l => b :: a :: dmaSwap 1 l
  | 2, a :: b :: c :: d :: l => d :: c :: b :: a :: dmaSwap 2 l
  | 3, a :: b :: c :: d :: l => c :: d :: a :: b :: dmaSwap 3 l
  | _, l => l

/-- Source and destination of the element at (k0, k1, k2), modulo 2^32 (R260). -/
def State.dmaAddr (s : State) (n : Nat) (src : Bool) (d : DmaSt) : Nat :=
  let step := fun i => s.rd (if src then R.DMA_CH_SSTEP n i else R.DMA_CH_DSTEP n i)
  let a := s.rd (if src then R.DMA_CH_SRC n else R.DMA_CH_DST n)
  (a + w32 d.k0 * step 0 + w32 d.k1 * step 1 + w32 d.k2 * step 2).toNat

/-- The element after (k0, k1, k2); `moved` after the last one, whose indices then stay. -/
def State.dmaAdvance (s : State) (n : Nat) (d : DmaSt) : DmaSt :=
  let c0 := s.get (F.DMA_CH_CNT01_C0 n)
  let c1 := s.get (F.DMA_CH_CNT01_C1 n)
  let c2 := s.get (F.DMA_CH_CNT2_C2 n)
  if d.k0 + 1 < c0 then { d with k0 := d.k0 + 1 }
  else if d.k1 + 1 < c1 then { d with k0 := 0, k1 := d.k1 + 1 }
  else if d.k2 + 1 < c2 then { d with k0 := 0, k1 := 0, k2 := d.k2 + 1 }
  else { d with moved := true }

/-- The channel halts with CODE c at address a (R262, R267). -/
def State.dmaHalt (s : State) (n c a : Nat) : State :=
  ((s.off (F.DMA_CH_STATUS_BUSY n)).dmaRefuse n c).wr (R.DMA_CH_ERR_ADDR n) (w32 a)

/-- Either end of a move is held by a hand-over (R230). -/
def State.dmaHeld (s : State) (a b e : Nat) : Bool :=
  s.mapWhere .dma a e false == .held || s.mapWhere .dma b e true == .held

/-- Move one element of channel n: read, swap, write. A move that a hand-over holds waits. -/
def State.dmaMove (s : State) (n : Nat) : State :=
  let d := s.dmaSt n
  let e := s.dmaE n
  let a := s.dmaAddr n true d
  let b := s.dmaAddr n false d
  if s.dmaHeld a b e then s
  else match s.mapRead .dma 3 0x11 1 a e with
    | (none, s) => s.dmaHalt n 4 a
    | (some (_, .uncorr), s) => s.dmaHalt n 5 a
    | (some (bs, _), s) =>
      match s.mapWrite .dma 0x11 1 b (dmaSwap (s.get (F.DMA_CH_CTRL_SWAP n)) bs) with
      | (false, s) => s.dmaHalt n 4 b
      | (true, s) =>
        let d := s.dmaAdvance n d
        (s.setDma n d).dmaShowPos n d.k0 d.k1 d.k2

/-- Elements of the next burst (R263). -/
def State.dmaBurstLen (s : State) (n : Nat) : Nat :=
  let d := s.dmaSt n
  let e := s.dmaE n
  let m := min (32 / e) (s.get (F.DMA_CH_CNT01_C0 n) - d.k0)
  let a := s.dmaAddr n true d
  let b := s.dmaAddr n false d
  let apart := decide (a + e * m ≤ b ∨ b + e * m ≤ a)
  if (s.rd (R.DMA_CH_SSTEP n 0)).toNat = e ∧ (s.rd (R.DMA_CH_DSTEP n 0)).toNat = e ∧ apart then m else 1

/-- Channel n works: busy, not done, not frozen (R374), and its clock runs. -/
def State.dmaRuns (s : State) (n : Nat) : Bool :=
  s.flag (F.DMA_CH_STATUS_BUSY n) && !(s.dmaSt n).moved && s.linkOn && !(s.flag F.DBG_FREEZE_DMA && s.cc.halted)

/-- Move k elements, as long as the channel runs. -/
def State.dmaMoves (n : Nat) : Nat → State → State
  | 0, s => s
  | k + 1, s => if s.dmaRuns n then State.dmaMoves n k (s.dmaMove n) else s

/-- Round-robin (R263): channel n is the first after the one served last that works. -/
def State.dmaTurn (s : State) (n : Nat) : Bool :=
  ((List.range 8).map fun i => (s.dmaLast + 1 + i) % 8).find? s.dmaRuns == some n

/-- DMA_BURST (R263) of the channel whose turn it is; a burst that a hand-over holds leaves the turn to the next channel. -/
def execDmaBurst (n : ChanNo) (s : State) : Out := .next <|
  if s.dmaTurn n.val then { State.dmaMoves n.val (s.dmaBurstLen n.val) s with dmaLast := n.val } else s

end Sys2Proof.Machine
end

