-- ==== Sys2Proof/Machine/Pcie.lean ====
section
/-! DEFINITION. The PCIe host's windows BAR 0 and BAR 2 (R329, R330), and the control core's private pin port (R349). -/

namespace Sys2Proof.Machine

/-! ### Completions -/

/-- Unsupported Request: a write is discarded. -/
def State.barUnsupported (s : State) (wr : Option Word) : State :=
  { s.pcieError 20 with resp := match wr with | none => .unsupported | some _ => .none }

/-- A refused access: Completer Abort, or a discarded write; ERR sets, and records its offset if it was 0 (R329). -/
def State.barRefused (s : State) (off : Nat) (wr : Option Word) : State :=
  let s := if s.flag F.PCIE_STATUS_ERR then s else (s.on F.PCIE_STATUS_ERR).wr R.PCIE_ERR_ADDR (w32 off)
  { s.pcieError 15 with resp := match wr with | none => .aborted | some _ => .none }

/-- The enabled bytes of a DWORD write, with their places. -/
def enabledBytes (be : BitVec 4) (w : Word) : List (Nat × Byte) :=
  ((List.range 4).filter be.getLsbD).map fun i => (i, (leBytes 4 w.toNat).getD i 0)

/-- Write the enabled bytes of the DWORD at memory key k. -/
def State.putEnabled (s : State) (k : Nat) (be : BitVec 4) (w : Word) : State :=
  (enabledBytes be w).foldl (fun t e => t.storeBytes (k + e.1) [e.2]) s

/-! ### Targets of BAR 0 -/

/-- Store at address a, a DWORD; a hand-over may hold it (R230). -/
def State.barStore (s : State) (a off : Nat) (be : BitVec 4) (wr : Option Word) : State :=
  match s.ownerPort 0x16 a with
  | .bus sub => (s.noteAcc 0x16 a wr.isSome (.bus sub)).barRefused off wr
  | .held _ => { s with blocked := true }
  | .ok _ =>
    match wr with
    | some w => { s.putEnabled a be w with resp := .none }
    | none =>
      let r := s.readAs 6 a a 4
      let w := w32 (leNat r.1.1)
      { r.2 with resp := if r.1.2 = .uncorr then .poisoned w else .data w }

/-- A peripheral register at address a: one DWORD with all byte enables set (R2), and not the DBG block. -/
def State.barReg (s : State) (a off : Nat) (be : BitVec 4) (wr : Option Word) : State :=
  if be != 15 || !regReach .pcie a then s.barRefused off wr
  else match wr with
    | some w => { s with resp := .none }.regWrite .pcie a w
    | none => (s.regRead .pcie a).2.answer (s.regRead .pcie a).1

/-- Replace the enabled bytes of a word. -/
def mergeWord (old : Word) (be : BitVec 4) (w : Word) : Word :=
  (enabledBytes be w).foldl (fun t e => setBits t (8 * e.1) 8 e.2.toNat) old

/-- A word of the MSI-X table (R328, R331). -/
def State.barTable (s : State) (k : Nat) (be : BitVec 4) (wr : Option Word) : State :=
  match wr with
  | some w => { s.setMsixWord k (mergeWord (s.msixWord k) be w) with resp := .none }
  | none => s.answer (s.msixWord k)

/-- A word of the pending bit array, which the host only reads. -/
def State.barPending (s : State) (k : Nat) (wr : Option Word) : State :=
  match wr with
  | some _ => { s with resp := .none }
  | none => s.answer (if k = 0 then s.pcie.pend else 0)

/-- BAR0_ACCESS (R329): the DWORD that holds offset `off`, with its byte enables; a write carries its data. -/
def execBar0Access (off : BitVec 26) (be : BitVec 4) (wr : Option Word) (s : State) : Out := .next <|
  s.orHeld isHost (.host off be wr) <|
  let o := off.toNat / 4 * 4
  if !s.flag F.PCIE_STATUS_LINKUP then s
  else if s.pcie.d3hot then s.barUnsupported wr
  else if o < 0x800000 then s.barStore (0x10000000 + o) o be wr
  else if 0x1000000 ≤ o ∧ o < 0x1180000 then s.barReg (0x40000000 + (o - 0x1000000)) o be wr
  else if 0x3FF0000 ≤ o ∧ o < 0x3FF0200 then s.barTable ((o - 0x3FF0000) / 4) be wr
  else if 0x3FF1000 ≤ o ∧ o < 0x3FF1008 then s.barPending ((o - 0x3FF1000) / 4) wr
  else s.barUnsupported wr

/-- BAR2_ACCESS (R330): DRAM has no error control (R394). -/
def execBar2Access (off : Word) (be : BitVec 4) (wr : Option Word) (s : State) : Out := .next <|
  let a := 0x80000000 + off.toNat / 4 * 4
  if !s.flag F.PCIE_STATUS_LINKUP then s
  else if s.pcie.d3hot || !s.inDram a 4 then s.barUnsupported wr
  else match wr with
    | some w => { s.putEnabled a be w with resp := .none }
    | none => s.answer (w32 (leNat (s.eccBytes a 4).1))

/-! ### The private pin port (R349) -/

/-- PRIVATE_PORT_ACCESS by the control core: offset, size (0 byte, 1 half-word, 2 word; 3, a double word, acts on its first word here)
and, of a store, the value. What the port does not serve raises exception 6, a misaligned access exception 3 before it (R98). -/
def execPrivatePortAccess (off : BitVec 16) (size : BitVec 2) (wr : Option Word) (s : State) : Out := .next <|
  let o := off.toNat
  let t := max s.now s.cc.ready
  let k : Cause := { num := 6, sub := 1, acc := if wr.isSome then 3 else 2, eaddr := w32 (0x180000 + o) }
  if !s.runnable .cc then s
  else if o % 2 ^ size.toNat ≠ 0 then s.raise .cc t 1 { k with num := 3, sub := 0 }
  else if 0x78 ≤ o ∨ size.toNat < 2 then s.raise .cc t (s.accCycles .cc (0x180000 + o) wr.isSome) k
  else match wr with
    | some w => { s with resp := .none }.regWrite .core (0x40150000 + o) w
    | none => (s.regRead .core (0x40150000 + o)).2.answer (s.regRead .core (0x40150000 + o)).1

end Sys2Proof.Machine
end

