-- ==== Sys2Proof/Machine/Debug.lean ====
section
/-! DEFINITION. The Roshorn debug port (R355 to R377): the TAP, attaching, halting, stepping and resuming, registers and memory
by the debugger, the fuses, and the two message words. -/

namespace Sys2Proof.Machine

/-! ### Halt, resume, step (R361 to R363) -/

/-- Every context. -/
def State.allCtx (s : State) : List Ctx := .cc :: (s.eng.map fun e => .se (Fin.ofNat 1024 e.1))

/-- BUSY of DBG_CMD_STATUS: a context has still to reach its boundary. -/
def State.haltBusy (s : State) : State :=
  s.put F.DBG_CMD_STATUS_BUSY (s.allCtx.any fun c => (s.core c).haltReq.isSome).toNat

/-- The targets of a command: the control core, or every leaf of a unit. -/
def State.dbgTargets (s : State) (cc : Bool) (u : Nat) : List Ctx :=
  if cc then [.cc] else (s.leavesOf u).map fun e => .se (Fin.ofNat 1024 e)

/-- The RESULT of a command: 3 not attached, 1 no such unit in the active profile, 2 a target that is not halted. -/
def State.dbgRefusal (s : State) (cc : Bool) (u : Nat) (needHalted : Bool) : Nat :=
  if !s.flag F.DBG_CTRL_ATTACH then 3
  else if !cc && !(match s.unit? u with | some x => s.usedNow x | none => false) then 1
  else if needHalted && !(s.dbgTargets cc u).all (fun c => (s.core c).halted) then 2
  else 0

/-- A sleeping context that has something to do wakes (R40, R114). -/
def State.wakeIfWork (s : State) (c : Ctx) : State :=
  if (s.core c).asleep && s.hasWork c then
    match c with
    | .cc => s.icuWake
    | .se e => s.wakeEngine e.val
  else s

/-- A halted context goes on. The watchdog's frozen count is released with the control core (R314); a core that RSTHALT held
runs the boot sequence, or the debugger's code where the debugger has moved PC (R360). -/
def State.resumeCtx (s : State) (c : Ctx) : State :=
  if !(s.core c).halted then s.modCore c fun x => { x with haltReq := none }
  else
    let s := (s.modCore c fun x => { x with halted := false, reason := 0, haltReq := none, ready := max x.ready s.now })
    match c with
    | .se _ => s.wakeIfWork c
    | .cc =>
      let s := s.wdtRelease.serThaw
      if s.boot.phase == .heldAtReset then
        if s.cc.pc = 0 then s.bootSteps s.boot.defects
        else (s.modCore .cc fun x => { x with started := true }).setPhase .waitLoop
      else s.wakeIfWork .cc

/-- Halt after a step, unless the step has halted the context on an event or waits inside its store (R362). -/
def State.stepHalt (s : State) (c : Ctx) : State :=
  let x := s.core c
  if x.halted then s
  else if x.stalled.isSome then s.modCore c fun x => { x with haltReq := some 4 }
  else s.haltCtx c 4

/-- The instruction that the next fetch of context c executes (R47, R83, R85, R369). -/
def State.stepInsn (s : State) (c : Ctx) : State :=
  let pc := (s.core c).pc
  let e := (s.eccBytes (s.fetchKey c pc) 4).2
  if fetchable c pc && e == .uncorr then outState s (execUncorrectableFetch c s)
  else
    let s := if fetchable c pc then s.noteEcc (readerOf c) (s.fetchKey c pc) pc.toNat e else s
    match decodeInsn c (s.fetchWord c) with
    | some i => s.runInsn i
    | none => s.issueWord c (s.fetchWord c) false fun _ s => s

/-- With STEPIE = 1 an interrupt that the control core can accept is what its step does. -/
def State.stepTakes (s : State) (c : Ctx) : Bool :=
  isCc c && s.flag F.DBG_CTRL_STEPIE && s.cc.ie && !s.cc.exl &&
    match s.candidate with
    | some n => s.offered n
    | none => false

/-- STEP of one halted context. A sleeper with nothing to do, and a parked leaf, execute nothing; nor does a core that RSTHALT
holds at the reset entry, while one whose PC the debugger has moved executes from there (log 122). -/
def State.stepCtx (s : State) (c : Ctx) : State :=
  let s := if isCc c then s.serThaw else s
  let s := s.modCore c fun x => { x with halted := false, reason := 0, haltReq := none,
                                         started := x.started || (isCc c && x.pc != 0) }
  let s := s.wakeIfWork c
  let s := if !s.runnable c then s
    else if s.stepTakes c then outState s (execInterruptAccept s) else s.stepInsn c
  s.stepHalt c

/-- A command of DBG_CMD: 1 HALT, 2 RESUME, 3 STEP; other values are ignored. -/
def State.dbgCommand (s : State) (cmd : Nat) (cc : Bool) (u : Nat) : State :=
  if cmd = 0 ∨ 3 < cmd then s
  else match s.dbgRefusal cc u (cmd != 1) with
    | 0 =>
      let s := s.put F.DBG_CMD_STATUS_RESULT 0
      let ts := s.dbgTargets cc u
      (match cmd with
        | 1 => ts.foldl (fun (t : State) c => t.askHaltCtx c 1) s
        | 2 => ts.foldl State.resumeCtx s
        | _ => ts.foldl State.stepCtx s).haltBusy
    | r => s.put F.DBG_CMD_STATUS_RESULT r

/-- HALT_TAKES_EFFECT (R362): context c stands at a boundary, not inside a store or an access that waits. -/
def execHaltTakesEffect (c : Ctx) (s : State) : Out := .next <|
  match (s.core c).haltReq with
  | some why => if (s.core c).stalled.isSome then s else (s.haltCtx c why).haltBusy
  | none => s

/-! ### DBG_CTRL (R359, R360, R375) -/

/-- Emulation ends; where the cause of the mode still stands the real entry is completed. -/
def State.endEmulation (s : State) : State :=
  if s.mode.emul.isNone then s
  else
    let s := { s with mode := { s.mode with emul := none } }
    if s.mode.entryStep ≠ 0 ∨ s.mode.resumeStep ≠ 0 then s
    else if s.modeNow = 4 then (if s.holdEnds then s else s.holdPower)
    else if s.modeNow = 0 then
      (((s.off F.SYS_CLK_STATUS_ECLKLOCK).off F.SYS_CLK_STATUS_PCLKLOCK).off F.SYS_CLK_STATUS_DRAMLOCK).off F.SYS_CLK_STATUS_REFOK
    else s

/-- The debugger detaches. -/
def State.detach (s : State) : State :=
  let s := (s.allCtx.foldl State.resumeCtx s).haltBusy
  let s := s.forEach 8 fun i s => s.off (F.DBG_PATCH_ADDR_EN i)
  let s := s.forEach 4 fun k s => s.off (F.DBG_CMP_CTRL_EN k)
  s.endEmulation

def State.dbgCtrlWrite (s : State) (v : Word) : State :=
  let was := s.flag F.DBG_CTRL_ATTACH
  let s := s.maskWrite R.DBG_CTRL v
  let s := if was && !bitOf v 31 then s.detach else s
  if bitOf v 24 then s.deviceReset F.SYS_RESET_CAUSE_DBGRST else s

/-! ### Registers (R366) -/

/-- A write to DBG_REG_DATA. It may write every field of STATUS, whatever level the context runs at. -/
def State.dbgRegWrite (s : State) (v : Word) : State :=
  let i := s.rd R.DBG_REG_IDX
  let n := bitsOf i 0 5
  if !s.dbgRegOk || (bitOf i 30 && (n == 23 || n == 24)) then s.on F.DBG_STATUS_ACCERR
  else s.modCore s.dbgCtx fun x =>
    if !bitOf i 30 then x.setGr (BitVec.ofNat 5 n) v
    else if n = 0 then { x with pc := v &&& ~~~(3 : Word), inRom := false }
    else if n = 1 then { x with status := statusWrite s.dbgCtx (x.status ||| 2) v }
    else x.srWrite s.dbgCtx n v

/-! ### Memory (R367, R368) -/

/-- The memory key of a debug access in SPACE 1 or 2, if its conditions hold. -/
def State.dbgSpaceKey (s : State) (space a : Nat) : Option Nat :=
  let e := s.get F.DBG_MEM_CTRL_ENGINE
  let x := s.engine e
  if !(x.halted || x.parked) then none
  else if space = 1 then (if a < 0x1000 then some (privKey (s.physOf e) + a) else none)
  else if space = 2 then
    (if a < 0x2000 then some (imemKey (s.physOf e) + 0x1000 * ((a / 0x1000 + x.actHalf.toNat) % 2) + a % 0x1000) else none)
  else none

/-- A debug read of a word: the word and whether it had an uncorrectable error, or a refusal. -/
def State.dbgMemRead (s : State) (space a : Nat) : Option (Word × Bool) × State :=
  let r := if space = 0 then s.mapRead .debug 7 0x17 2 a 4
    else match s.dbgSpaceKey space a with
      | some k => (some (s.readAs 7 a k 4).1, (s.readAs 7 a k 4).2)
      | none => (none, s)
  (r.1.map fun b => (w32 (leNat b.1), b.2 == .uncorr), r.2)

/-- A debug write of a word; false says that it was refused. -/
def State.dbgMemWrite (s : State) (space a : Nat) (v : Word) : Bool × State :=
  if space = 0 then s.mapWrite .debug 0x17 2 a (leBytes 4 v.toNat)
  else match s.dbgSpaceKey space a with
    | some k => (true, s.storeBytes k (leBytes 4 v.toNat))
    | none => (false, s)

/-- An access starts; a running one goes on, and the start is ignored. -/
def State.dbgMemStart (s : State) (v : Option Word) : State :=
  if s.dbg.access.isSome then s
  else { s.on F.DBG_MEM_CTRL_BUSY with dbg := { s.dbg with access := some v } }

/-- The access is over; ADDR advances with AINC. -/
def State.dbgMemEnd (s : State) (ok : Bool) : State :=
  let s := { s.off F.DBG_MEM_CTRL_BUSY with dbg := { s.dbg with access := none } }
  let s := if ok then s else s.on F.DBG_STATUS_ACCERR
  if s.flag F.DBG_MEM_CTRL_AINC then s.wr R.DBG_MEM_ADDR (s.rd R.DBG_MEM_ADDR + 4) else s

/-- DBG_MEM_DONE: the access is made. -/
def execDbgMemDone (s : State) : Out := .next <|
  let a := (s.rd R.DBG_MEM_ADDR).toNat
  let sp := s.get F.DBG_MEM_CTRL_SPACE
  match s.dbg.access with
  | none => s
  | some (some v) =>
    let r := s.dbgMemWrite sp a v
    r.2.dbgMemEnd r.1
  | some none =>
    match s.dbgMemRead sp a with
    | (some (w, bad), s) =>
      ({ s with dbg := { s.dbg with memData := w } }.put F.DBG_MEM_CTRL_ECC bad.toNat).dbgMemEnd true
    | (none, s) => s.dbgMemEnd false

/-- DBG_MEM_TIMEOUT: 1 ms has passed, and the access is refused. -/
def execDbgMemTimeout (s : State) : Out := .next <| if s.dbg.access.isSome then s.dbgMemEnd false else s

/-! ### Fuses (R376) -/

/-- A write to DBG_FUSE_CTRL. -/
def State.fuseCtrlWrite (s : State) (v : Word) : State :=
  let kh := bitOf v 0
  let ar := bitOf v 1
  let kv := s.flag F.CFG_FUSE_KEYV
  if bitsOf v 24 8 ≠ 0x5A then s
  else if !s.flag F.DBG_CTRL_ATTACH || s.flag F.DBG_FUSE_STATUS_BUSY || s.mode.emul.isSome || (kh && kv) || (ar && !(kv || kh)) then
    s.on F.DBG_FUSE_STATUS_REFUSED
  else { s.on F.DBG_FUSE_STATUS_BUSY with dbg := { s.dbg with fuse := some (kh, ar) } }

/-- The key hash of DBG_FUSE_DATA: digest byte 4i + j in bits [8j + 7:8j] of word i. -/
def State.fuseHash (s : State) : List Byte := (List.range 8).flatMap fun i => leBytes 4 (s.rd (R.DBG_FUSE_DATA i)).toNat

/-- A hash of which no rule says what it is: programmed over another, or by a programming that failed. -/
def State.freeHash (s : State) : List Byte := (List.range 32).map fun i => Config.undefByte s.freeCtr i

/-- What the selected fuses hold after a programming. -/
def State.programFuses (s : State) (kh ar ok : Bool) : State :=
  let f := s.fuses
  let took := ok || decide (Config.pick s.freeCtr % 2 = 1)
  let hash := if !kh || !took then f.hash else if ok && !f.keyv then s.fuseHash else s.freeHash
  { s with fuses := { keyv := f.keyv || (kh && took), authreq := f.authreq || (ar && took), hash := hash },
           freeCtr := s.freeCtr + 1 }

/-- FUSE_PROGRAM_DONE. CFG_FUSE shows the fuses after the next reset. -/
def execFuseProgramDone (ok : Bool) (s : State) : Out := .next <|
  match s.dbg.fuse with
  | none => s
  | some (kh, ar) =>
    let s := { (s.off F.DBG_FUSE_STATUS_BUSY).programFuses kh ar ok with dbg := { s.dbg with fuse := none } }
    s.on (if ok then F.DBG_FUSE_STATUS_DONE else F.DBG_FUSE_STATUS_FAIL)

/-! ### The DBG block through DBGACC (R358, R377) -/

/-- A write to D2C. -/
def State.d2cWrite (s : State) (v : Word) : State :=
  let full := s.flag F.DBG_CHAN_STATUS_D2CFULL
  ((s.wr R.DBG_CHAN_D2C v).on F.DBG_CHAN_STATUS_D2CFULL).iff full fun s => s.on F.DBG_CHAN_STATUS_D2COVR

/-- A write to the register at offset `off` of the DBG block by the debugger. -/
def State.dbgWrite (s : State) (off : Nat) (v : Word) : State :=
  if off = 0x0 then s.dbgCtrlWrite v
  else if off = 0x8 then s.dbgCommand (bitsOf v 28 4) (bitOf v 16) (bitsOf v 0 12)
  else if off = 0x14 then s.dbgRegWrite v
  else if off = 0x18 then
    let s := s.maskWrite R.DBG_MEM_CTRL v
    if bitOf v 31 then s.dbgMemStart none else s
  else if off = 0x20 then s.dbgMemStart (some v)
  else if off = 0x24 then (s.maskWrite R.DBG_FREEZE v).iff (!bitOf v 5) fun s => s.serThaw
  else if off = 0x28 then s.d2cWrite v
  else if off = 0x2C then s.dbgCoreWrite 0x2C v
  else if off = 0x19C ∨ off = 0x1BC then s.maskWrite (0x40170000 + off) (v &&& 0xBFFFFFFF)
  else if off = 0x220 then s.fuseCtrlWrite v
  else s.maskWrite (0x40170000 + off) v

/-- What a DBGACC read does besides returning its value. -/
def State.dbgReadSide (s : State) (off : Nat) : State :=
  if off = 0x2C then s.off F.DBG_CHAN_STATUS_C2DFULL
  else if off = 0x14 ∧ !s.dbgRegOk then s.on F.DBG_STATUS_ACCERR
  else s

/-- One access of the DBG block, made. -/
def State.dbgPerform (s : State) (a : Bool × Nat × Word) : State :=
  let off := 4 * a.2.1
  if a.1 then
    let s := s.dbgWrite off a.2.2
    { s with tap := { s.tap with run := none, done := true, err := false } }
  else
    let v := s.dbgValue off
    let s := s.dbgReadSide off
    { s with tap := { s.tap with run := none, data := v, done := true, err := false } }

/-- An access that has waited for PCLK is made (R358). -/
def State.tapRun (s : State) : State :=
  match s.tap.run with
  | some a => if s.pclkOn then s.dbgPerform a else s
  | none => s

/-- An Update-DR under DBGACC. In a real HOLD or DORMANT it completes with ERR (R355); while PCLK does not run it waits, and
another is ignored with OVERRUN. -/
def State.tapAccess (s : State) (wr : Bool) (index : Nat) (v : Word) : State :=
  let s := { s with tap := { s.tap with ir := 8 } }
  if (s.modeNow = 4 ∨ s.modeNow = 0) ∧ !s.pclkOn then
    { s with tap := { s.tap with run := none, data := 0, done := true, err := true } }
  else if !s.pclkOn then
    if s.tap.run.isSome then s.on F.DBG_STATUS_OVERRUN
    else { s with tap := { s.tap with run := some (wr, index, v), done := false, err := false } }
  else s.tapRun.dbgPerform (wr, index, v)

/-! ### The TAP's rows (R355 to R358) -/

/-- TAP_RESET. -/
def execTapReset (s : State) : Out := .next <| { s with tap := { s.tap with ir := 2 } }

/-- EXTEST: the cells drive under RESET_N, and capture what stands at the balls (R357). -/
def execExtest (s : State) : Out := .next <| { s with tap := { s.tap with ir := 0 } }.captureCells.pinSync

/-- SAMPLE/PRELOAD: the cells capture the levels at the balls, and `cells` are shifted into the boundary register. -/
def execSamplePreload (cells : List Bool) (s : State) : Out := .next <|
  let s := s.captureCells
  { s with tap := { s.tap with ir := 1, cells := cells } }

/-- IDCODE. -/
def execIdcode (s : State) : Out := .next <| { s with tap := { s.tap with ir := 2 } }.answer 0x11024B5B

/-- BYPASS, or any code that R356 does not list. -/
def execBypass (code : BitVec 5) (s : State) : Out := .next <|
  if code = 0 ∨ code = 1 ∨ code = 2 ∨ code = 8 then s else { s with tap := { s.tap with ir := code } }

/-- DBGACC. -/
def execDbgacc (wr : Bool) (index : Byte) (data : Word) (s : State) : Out := .next <| s.tapAccess wr index.toNat data

/-! ### Rows that are one access of the DBG block -/

/-- DEBUG_ATTACH: DBG_CTRL with ATTACH = 1. -/
def execDebugAttach (v : Word) (s : State) : Out := .next <| s.tapAccess true 0 (v ||| 0x80000000)
/-- DEBUG_DETACH: DBG_CTRL with ATTACH = 0. -/
def execDebugDetach (v : Word) (s : State) : Out := .next <| s.tapAccess true 0 (v &&& 0x7FFFFFFF)
/-- SYSRST (R360). -/
def execSysrst (v : Word) (s : State) : Out := .next <| s.tapAccess true 0 (v ||| 0x01000000)

/-- The word of DBG_CMD. -/
def cmdOf (cmd : Nat) (cc : Bool) (u : UnitId) : Word := w32 (cmd * 2 ^ 28 + cc.toNat * 2 ^ 16 + u.toNat)

/-- DEBUG_HALT (R361). -/
def execDebugHalt (cc : Bool) (u : UnitId) (s : State) : Out := .next <| s.tapAccess true 2 (cmdOf 1 cc u)
/-- DEBUG_RESUME (R361). -/
def execDebugResume (cc : Bool) (u : UnitId) (s : State) : Out := .next <| s.tapAccess true 2 (cmdOf 2 cc u)
/-- DEBUG_STEP (R361). -/
def execDebugStep (cc : Bool) (u : UnitId) (s : State) : Out := .next <| s.tapAccess true 2 (cmdOf 3 cc u)
/-- DBG_REG_READ (R366). -/
def execDbgRegRead (s : State) : Out := .next <| s.tapAccess false 5 0
/-- DBG_REG_WRITE (R366). -/
def execDbgRegWrite (v : Word) (s : State) : Out := .next <| s.tapAccess true 5 v
/-- DBG_MEM_WRITE: the write starts (R367). -/
def execDbgMemWrite (v : Word) (s : State) : Out := .next <| s.tapAccess true 8 v
/-- DBG_MEM_READ: DBG_MEM_CTRL with READ = 1 (R367). -/
def execDbgMemRead (v : Word) (s : State) : Out := .next <| s.tapAccess true 6 (v ||| 0x80000000)
/-- FUSE_PROGRAM (R376). -/
def execFuseProgram (v : Word) (s : State) : Out := .next <| s.tapAccess true 0x88 v

/-- DBG_CHAN_D2C_WRITE; a writer other than the debugger is ignored (R359). -/
def execDbgChanD2cWrite (m : Master) (v : Word) (s : State) : Out := .next <|
  if m = .debug then s.tapAccess true 0xA v else s.writeReg m R.DBG_CHAN_D2C v
/-- DBG_CHAN_D2C_READ (R377). -/
def execDbgChanD2cRead (m : Master) (s : State) : Out := .next <|
  if m = .debug then s.tapAccess false 0xA 0 else s.readReg m R.DBG_CHAN_D2C
/-- DBG_CHAN_C2D_WRITE (R377). -/
def execDbgChanC2dWrite (m : Master) (v : Word) (s : State) : Out := .next <|
  if m = .debug then s.tapAccess true 0xB v else s.writeReg m R.DBG_CHAN_C2D v
/-- DBG_CHAN_C2D_READ (R377). -/
def execDbgChanC2dRead (m : Master) (s : State) : Out := .next <|
  if m = .debug then s.tapAccess false 0xB 0 else s.readReg m R.DBG_CHAN_C2D

end Sys2Proof.Machine
end

