-- ==== Sys2Proof/Machine/RegRows.lean ====
section
/-! DEFINITION. The rows of the table that are one write to, or one read of, a register, each through the one dispatch of
Machine/RegWrite.lean or Machine/RegRead.lean with the access rights of its master. -/

namespace Sys2Proof.Machine

/-! ### Heads -/

/-- A write of one to HEAD_h_CTRL.EN (R167). -/
def execHeadStart (m : Master) (h : Head) (v : Word) (s : State) : Out := .next <|
  s.writeReg m (R.HEAD_CTRL h) (v ||| 0x80000000)

/-- A write of zero to EN before RUN sets (R167). -/
def execHeadStartAbandon (m : Master) (h : Head) (v : Word) (s : State) : Out := .next <|
  s.writeReg m (R.HEAD_CTRL h) (v &&& 0x7FFFFFFF)

/-- A write of zero to EN of a running head (R168). -/
def execHeadStop (m : Master) (h : Head) (v : Word) (s : State) : Out := .next <|
  s.writeReg m (R.HEAD_CTRL h) (v &&& 0x7FFFFFFF)

/-- A write of one to EN of a head that is stopping (R168). -/
def execHeadStopWithdraw (m : Master) (h : Head) (v : Word) (s : State) : Out := .next <|
  s.writeReg m (R.HEAD_CTRL h) (v ||| 0x80000000)

/-- A word of a beam-list bank (R173). -/
def execBlmemWrite (m : Master) (h : Head) (b : Bool) (i : BitVec 12) (v : Word) (s : State) : Out := .next <|
  s.writeReg m (0x40108000 + 0x10000 * h + (if b then 0x4000 else 0) + 4 * i.toNat) v

/-- HEAD_h_CHK_RFGEXIT (R193). -/
def execRefugeViewExitRequest (m : Master) (h : Head) (v : Word) (s : State) : Out := .next <|
  s.writeReg m (0x40100518 + 0x10000 * h) v

/-- HEAD_h_DV_HALF (R196). -/
def execDvHalfWrite (m : Master) (h : Head) (v : Word) (s : State) : Out := .next <| s.writeReg m (R.HEAD_DV_HALF h) v

/-! ### Modes and reset -/

/-- A request for FULL (R211, R221). -/
def execModeReqFull (m : Master) (s : State) : Out := .next <| s.writeReg m R.SYS_MODE_REQ 2
/-- A request for LEAN (R209, R221). -/
def execModeReqLean (m : Master) (s : State) : Out := .next <| s.writeReg m R.SYS_MODE_REQ 3
/-- A request for REFUGE (R219). -/
def execModeReqRefuge (m : Master) (s : State) : Out := .next <| s.writeReg m R.SYS_MODE_REQ 5
/-- A request for HOLD (R213). -/
def execModeReqHold (m : Master) (s : State) : Out := .next <| s.writeReg m R.SYS_MODE_REQ 4
/-- A request for DORMANT (R222). -/
def execModeReqDormant (m : Master) (s : State) : Out := .next <| s.writeReg m R.SYS_MODE_REQ 0
/-- SYS_RESET (R224). -/
def execSoftwareReset (m : Master) (v : Word) (s : State) : Out := .next <| s.writeReg m R.SYS_RESET v
/-- SYS_THERM (R208). -/
def execThermWrite (m : Master) (v : Word) (s : State) : Out := .next <| s.writeReg m R.SYS_THERM v

/-! ### Store, blitter, DMA, cameras -/

/-- STORE_OWNER_n (R230). -/
def execOwnerHandover (m : Master) (n : BankNo) (v : Word) (s : State) : Out := .next <| s.writeReg m (R.STORE_OWNER n) v
/-- STORE_PWR (R235). -/
def execStorePwrWrite (m : Master) (v : Word) (s : State) : Out := .next <| s.writeReg m R.STORE_PWR v
/-- STORE_ECC_INJ (R241). -/
def execEccInjectionArm (m : Master) (v : Word) (s : State) : Out := .next <| s.writeReg m R.STORE_ECC_INJ v
/-- SCRUB_CTRL.GO (R242). -/
def execScrubGo (m : Master) (v : Word) (s : State) : Out := .next <| s.writeReg m R.SCRUB_CTRL (v ||| 1)
/-- SCRUB_CTRL.STOP (R242). -/
def execScrubStop (m : Master) (v : Word) (s : State) : Out := .next <| s.writeReg m R.SCRUB_CTRL ((v ||| 4) &&& ~~~(1 : Word))
/-- STORE_MARCH_CTRL.GO (R245). -/
def execMarchGo (m : Master) (v : Word) (s : State) : Out := .next <| s.writeReg m R.STORE_MARCH_CTRL (v ||| 0x80000000)
/-- BLIT_CTRL.GO (R247). -/
def execBlitGo (m : Master) (v : Word) (s : State) : Out := .next <| s.writeReg m R.BLIT_CTRL (v ||| 1)
/-- BLIT_CTRL.STOP (R257). -/
def execBlitStop (m : Master) (v : Word) (s : State) : Out := .next <| s.writeReg m R.BLIT_CTRL ((v ||| 2) &&& ~~~(1 : Word))
/-- DMA_CHn_CTRL.GO (R264). -/
def execDmaGo (m : Master) (n : ChanNo) (v : Word) (s : State) : Out := .next <|
  s.writeReg m (R.DMA_CH_CTRL n) ((v ||| 0x80000000) &&& 0x9FFFFFFF)
/-- DMA_CHn_CTRL.ARM (R265). -/
def execDmaArm (m : Master) (n : ChanNo) (v : Word) (s : State) : Out := .next <|
  s.writeReg m (R.DMA_CH_CTRL n) ((v ||| 0x20000000) &&& 0x3FFFFFFF)
/-- DMA_CHn_CTRL.STOP (R266). -/
def execDmaStop (m : Master) (n : ChanNo) (v : Word) (s : State) : Out := .next <|
  s.writeReg m (R.DMA_CH_CTRL n) ((v ||| 0x40000000) &&& 0x5FFFFFFF)
/-- CAM_n_CTRL.EN = 1 (R270). -/
def execCamEnable (m : Master) (n : PortNo) (v : Word) (s : State) : Out := .next <|
  s.writeReg m (R.CAM_CTRL n) (v ||| 0x80000000)
/-- CAM_n_CTRL.EN = 0 (R270). -/
def execCamDisable (m : Master) (n : PortNo) (v : Word) (s : State) : Out := .next <|
  s.writeReg m (R.CAM_CTRL n) (v &&& 0x7FFFFFFF)

/-! ### Audio -/

/-- AUD_Vn_CTRL.EN = 1 (R282). -/
def execSourceEnable (m : Master) (n : SourceNo) (v : Word) (s : State) : Out := .next <|
  s.writeReg m (R.AUD_V_CTRL n) (v ||| 0x80000000)
/-- AUD_Vn_CTRL.RETRIG with EN kept at 1 (R282). -/
def execRetrig (m : Master) (n : SourceNo) (v : Word) (s : State) : Out := .next <|
  s.writeReg m (R.AUD_V_CTRL n) (v ||| 0xC0000000)
/-- AUD_x_CTRL.COMMIT (R286). -/
def execCommit (m : Master) (b : BitVec 2) (v : Word) (s : State) : Out := .next <|
  s.writeReg m (R.AUD_B_CTRL b.toNat) (v ||| 0x80000000)
/-- AUD_CTRL.EN = 1 (R291). -/
def execAudioEnable (m : Master) (v : Word) (s : State) : Out := .next <| s.writeReg m R.AUD_CTRL (v ||| 0x80000000)
/-- Any register of the AUD block (R277). -/
def execAudRegisterWrite (m : Master) (off : BitVec 16) (v : Word) (s : State) : Out := .next <|
  s.writeReg m (0x40080000 + off.toNat) v

/-! ### Interrupt controller, timers, watchdog, converter -/

/-- ICU_SET_k (R298). -/
def execIcuSet (m : Master) (k : BitVec 2) (v : Word) (s : State) : Out := .next <| s.writeReg m (R.ICU_SET k.toNat) v

/-- ICU_PEND_k (R298); a request that rises in the same PCLK wins over the clear (R6). -/
def execIcuPendClear (m : Master) (k : BitVec 2) (v rise : Word) (s : State) : Out := .next <|
  let t := s.writeReg m (R.ICU_PEND k.toNat) v
  t.forEach 32 fun b t => t.iff (t.pclkOn && bitOf rise b && decide (32 * k.toNat + b < 86)) fun t =>
    t.requestNow (32 * k.toNat + b)

/-- ICU_EOI (R301). -/
def execIcuEoi (m : Master) (v : Word) (s : State) : Out := .next <| s.writeReg m R.ICU_EOI v
/-- ICU_SRC_n (R297). -/
def execFiltWrite (m : Master) (n : IrqNo) (v : Word) (s : State) : Out := .next <| s.writeReg m (R.ICU_SRC n) v
/-- A read of TIM_t_CAPR_c (R308). -/
def execCaprRead (m : Master) (t : TimerNo) (ch : BitVec 2) (s : State) : Out := .next <|
  s.readReg m (R.TIM_CAPR t ch.toNat)
/-- TIM_t_CNT (R305). -/
def execCntWrite (m : Master) (t : TimerNo) (v : Word) (s : State) : Out := .next <| s.writeReg m (R.TIM_CNT t) v
/-- WDT_SERVICE (R312). -/
def execWdtService (m : Master) (v : Word) (s : State) : Out := .next <| s.writeReg m R.WDT_SERVICE v
/-- WDT_CTRL with EN = 1 (R313). -/
def execWdtEnable (m : Master) (v : Word) (s : State) : Out := .next <| s.writeReg m R.WDT_CTRL (v ||| 0x80000000)
/-- ADC_START (R316). -/
def execAdcStart (m : Master) (v : Word) (s : State) : Out := .next <| s.writeReg m R.ADC_START v
/-- ADC_CTRL (R317). -/
def execAdcEnable (m : Master) (v : Word) (s : State) : Out := .next <| s.writeReg m R.ADC_CTRL v
/-- A read of ADC_RES_i (R316). -/
def execAdcResRead (m : Master) (i : BitVec 3) (s : State) : Out := .next <| s.readReg m (R.ADC_RES i.toNat)

/-! ### Links -/

/-- PCIE_CTRL.LINKEN (R327). -/
def execLinkenWrite (m : Master) (v : Word) (s : State) : Out := .next <| s.writeReg m R.PCIE_CTRL v
/-- PCIE_MSIX_SEND (R331). -/
def execMsixSend (m : Master) (v : Word) (s : State) : Out := .next <| s.writeReg m R.PCIE_MSIX_SEND v
/-- ETH_n_TXPOLL (R334). -/
def execTxpoll (m : Master) (n : PortNo) (v : Word) (s : State) : Out := .next <| s.writeReg m (R.ETH_TXPOLL n) v
/-- A read of PTP_NS (R336). -/
def execPtpNsRead (m : Master) (s : State) : Out := .next <| s.readReg m R.ETH_0_PTP_NS
/-- PTP_NS (R336). -/
def execPtpNsWrite (m : Master) (v : Word) (s : State) : Out := .next <| s.writeReg m R.ETH_0_PTP_NS v
/-- PTP_ADJ (R336). -/
def execPtpAdj (m : Master) (v : Word) (s : State) : Out := .next <| s.writeReg m R.ETH_0_PTP_ADJ v
/-- ETH_n_MDIO with GO (R332). -/
def execMdioGo (m : Master) (n : PortNo) (v : Word) (s : State) : Out := .next <|
  s.writeReg m (R.ETH_MDIO n) (v ||| 0x80000000)
/-- UART_n_DATA, written and read (R340). -/
def execUartDataWrite (m : Master) (n : PortNo) (v : Word) (s : State) : Out := .next <| s.writeReg m (R.UART_DATA n) v
/-- A read of UART_n_DATA (R340). -/
def execUartDataRead (m : Master) (n : PortNo) (s : State) : Out := .next <| s.readReg m (R.UART_DATA n)
/-- SPI_n_DATA (R340). -/
def execSpiDataWrite (m : Master) (n : PortNo) (v : Word) (s : State) : Out := .next <| s.writeReg m (R.SPI_DATA n) v
/-- A read of SPI_n_DATA (R340). -/
def execSpiDataRead (m : Master) (n : PortNo) (s : State) : Out := .next <| s.readReg m (R.SPI_DATA n)
/-- I2C_n_CMD with GO (R340). -/
def execI2cGo (m : Master) (n : PortNo) (v : Word) (s : State) : Out := .next <|
  s.writeReg m (R.I2C_CMD n) (v ||| 0x80000000)
/-- QSPI_CMD with GO (R340). -/
def execQspiGo (m : Master) (v : Word) (s : State) : Out := .next <| s.writeReg m R.QSPI_CMD (v ||| 0x80000000)

/-! ### Pins -/

/-- A write to PIN_SEL_f, PIN_Pk_OE or PIN_CFG_p (R346). -/
def execPinSelWrite (m : Master) (off : BitVec 16) (v : Word) (s : State) : Out := .next <|
  s.writeReg m (0x40150000 + off.toNat) v
/-- PIN_Pk_SET (R348). -/
def execPinSet (m : Master) (k : BitVec 2) (v : Word) (s : State) : Out := .next <| s.writeReg m (R.PIN_P_SET k.toNat) v
/-- PIN_Pk_CLR (R348). -/
def execPinClr (m : Master) (k : BitVec 2) (v : Word) (s : State) : Out := .next <| s.writeReg m (R.PIN_P_CLR k.toNat) v
/-- PIN_Pk_TGL (R348). -/
def execPinTgl (m : Master) (k : BitVec 2) (v : Word) (s : State) : Out := .next <| s.writeReg m (R.PIN_P_TGL k.toNat) v

end Sys2Proof.Machine
end

