-- ==== Sys2Proof/Machine/Waits.lean ====
section
/-! DEFINITION. The commands that end a wait which other commands have met: the lock of a core PLL and the end of HOLD, which let a
waiting access of the debug port through (R206, R217, R358), and the end of a hand-over, which lets the held accesses of the new owner
through (R230, R231). -/

namespace Sys2Proof.Machine

/-! ### Clocks -/

/-- Both core PLLs have locked after a reset: an access of the debug port that waited is made, and the start goes on unless it has reset
the part. -/
def State.clocksUp (s : State) (d : Defects) : State :=
  let t := match s.tap.run with
    | some a => s.dbgPerform a
    | none => s
  if t.boot.phase = .inReset then t else t.bootClocks d

/-- CORE_PLL_LOCK (R206): with both locked the clocks run, and steps 2 to 4 follow; at a resume the row HOLD_RESUME does. -/
def execCorePllLock (p : CorePll) (d : Defects) (s : State) : Out := .next <|
  let failed := match p with | .eclk => s.boot.eclkFail | .pclk => s.boot.pclkFail
  let t := match p with | .eclk => s.on F.SYS_CLK_STATUS_ECLKLOCK | .pclk => s.on F.SYS_CLK_STATUS_PCLKLOCK
  if failed then s
  else match p, s.boot.phase with
    | .eclk, .started => t.setPhase .eclkLocked
    | .pclk, .started => t.setPhase .pclkLocked
    | .eclk, .pclkLocked => t.clocksUp d
    | .pclk, .eclkLocked => t.clocksUp d
    | _, _ => if s.resumePlls then t else s

/-- HOLD_RESUME (R217 steps 1 to 4); an access of the debug port that waited for PCLK is then made. -/
def execHoldResume (s : State) : Out := .next <|
  let t := s.holdResume
  if t.mode.resumeStep = s.mode.resumeStep then t else t.pinSync.tapRun

/-! ### Hand-overs -/

/-- The state that a command leaves. -/
def State.left (s : State) : Out → State
  | .next t => t
  | _ => s

/-- A command of a block that waited is run again. -/
def State.runWaiting (s : State) (i : Held) : State :=
  s.left <| match i with
  | .blit op =>
    match op with
    | 0 => execBlitEnd s
    | 1 => execBlitNop s
    | 2 => execBlitFill s
    | 3 => execBlitCopy s
    | 4 => execBlitKey s
    | 5 => execBlitBlend s
    | _ => execBlitConvert s
  | .blitRow => execPacedRowStart s
  | .frameStart n vc num => execFrameStartPacket n vc num s
  | .csiLine n vc dt h c bs => execCsiLongPacket n vc dt h c bs s
  | .frameEnd n vc => execFrameEndPacket n vc s
  | .frameDone n => execCameraFrameComplete n s
  | .macTx n => execEthTransmitFrame n s
  | .macRx n ok bs => execEthReceiveFrame n ok bs s
  | .host off be wr => execBar0Access off be wr s

/-- Held accesses proceed in order (R230): the contexts', the heads' fetches, and those of the blocks. -/
def State.heldProceed (s : State) : State :=
  let s := s.replayAll
  let s := s.forEach 4 fun h s => s.forEach 8 fun l s => s.refetch h l
  s.waiting.foldl State.runWaiting { s with waiting := [] }

/-- HANDOVER_COMPLETE (R230). -/
def execHandoverComplete (n : BankNo) (s : State) : Out := .next <|
  if s.flag (F.STORE_OWNER_BUSY n) then (s.ownerDone n false).heldProceed else s

/-- A read of bank n by its old owner ends with a bus error (R231): the reader meets it as it meets the refusal of R229. A reader that
was not the old owner had none. -/
def State.endRead (s : State) (n : Nat) (r : OldRead) : State :=
  let old := fun req => covers (s.get (F.STORE_OWNER_PREV n)) req
  match r with
  | .core c a =>
    if old (s.reqOf c) && inBank n a.toNat && s.runnable c then
      s.raise c (max s.now (s.core c).ready) (s.accCycles c a.toNat false) { num := 6, sub := 2, acc := 2, eaddr := a }
    else s
  | .layer h l a => if old (0x18 + h.val) && inBank n a.toNat then s.layerLost h l.val 1 a.toNat else s
  | .dma m => if old 0x11 && s.dmaRuns m then s.dmaHalt m 4 (s.dmaAddr m true (s.dmaSt m)) else s
  | .blit a => if old 0x12 && s.blitRuns && inBank n a.toNat then s.blitStopOn (9, a.toNat) else s
  | .eth m tx => if old 0x15 then s.ethStop m (if tx then F.ETH_STATUS_TXRUN m else F.ETH_STATUS_RXRUN m) else s
  | .host off =>
    if old 0x16 && inBank n (0x10000000 + off.toNat / 4 * 4) then s.barRefused (off.toNat / 4 * 4) none else s

/-- HANDOVER_TIMEOUT (R231): `e.reads` are the old owner's outstanding reads, which end; a write of it not yet made is discarded, which
leaves nothing. A LIMIT of 0 waits without limit. -/
def execHandoverTimeout (e : HandoverEnd) (s : State) : Out := .next <|
  let n := e.bank
  if s.flag (F.STORE_OWNER_BUSY n) && s.flag F.STORE_HO_TIMEOUT_LIMIT then
    ((e.reads.foldl (fun t r => t.endRead n r) s).ownerDone n true).heldProceed
  else s

end Sys2Proof.Machine
end

