-- ==== Sys2Proof/Machine/Dispatch.lean ====
section
/-! DEFINITION. One arm per command: each calls its meaning, and nothing else. -/

namespace Sys2Proof.Machine

def exec (i : Instr) (s : State) : Host.Outcome State Fault Refusal :=
  match i with
  | .registerWrite m a v => Sys2Proof.Machine.execRegisterWrite m a v s
  | .rcRead m a coinc => Sys2Proof.Machine.execRcRead m a coinc s
  | .lineStart h late => Sys2Proof.Machine.execLineStart h late s
  | .slotRelease h => Sys2Proof.Machine.execSlotRelease h s
  | .storeToLineStallEnd e => Sys2Proof.Machine.execStoreToLineStallEnd e s
  | .frameBoundary h => Sys2Proof.Machine.execFrameBoundary h s
  | .faceDoorbell m u v => Sys2Proof.Machine.execFaceDoorbell m u v s
  | .caravanForward u child => Sys2Proof.Machine.execCaravanForward u child s
  | .faceComplete e v => Sys2Proof.Machine.execFaceComplete e v s
  | .unitPark m u => Sys2Proof.Machine.execUnitPark m u s
  | .unitRestart m u => Sys2Proof.Machine.execUnitRestart m u s
  | .leadWrite m h v => Sys2Proof.Machine.execLeadWrite m h v s
  | .resetRelease sel pcieEn => Sys2Proof.Machine.execResetRelease sel pcieEn s
  | .corePllLock p d => Sys2Proof.Machine.execCorePllLock p d s
  | .corePllLockTimeout p => Sys2Proof.Machine.execCorePllLockTimeout p s
  | .flashNoAnswer => Sys2Proof.Machine.execFlashNoAnswer s
  | .sectionStreamDone => Sys2Proof.Machine.execSectionStreamDone s
  | .dramTrainingDone ok => Sys2Proof.Machine.execDramTrainingDone ok s
  | .bootHeadsUp => Sys2Proof.Machine.execBootHeadsUp s
  | .firstPicture us => Sys2Proof.Machine.execFirstPicture us s
  | .profileSwitchRequest m v => Sys2Proof.Machine.execProfileSwitchRequest m v s
  | .profileStage1Done => Sys2Proof.Machine.execProfileStage1Done s
  | .profileReloadDone u => Sys2Proof.Machine.execProfileReloadDone u s
  | .or c rd rs rt fl => Sys2Proof.Machine.execOr c rd rs rt fl s
  | .and c rd rs rt fl => Sys2Proof.Machine.execAnd c rd rs rt fl s
  | .xor c rd rs rt fl => Sys2Proof.Machine.execXor c rd rs rt fl s
  | .andn c rd rs rt fl => Sys2Proof.Machine.execAndn c rd rs rt fl s
  | .add c rd rs rt fl => Sys2Proof.Machine.execAdd c rd rs rt fl s
  | .sub c rd rs rt fl => Sys2Proof.Machine.execSub c rd rs rt fl s
  | .adc c rd rs rt fl => Sys2Proof.Machine.execAdc c rd rs rt fl s
  | .sbc c rd rs rt fl => Sys2Proof.Machine.execSbc c rd rs rt fl s
  | .neg c rd rs fl => Sys2Proof.Machine.execNeg c rd rs fl s
  | .abs c rd rs fl => Sys2Proof.Machine.execAbs c rd rs fl s
  | .slt c rd rs rt fl => Sys2Proof.Machine.execSlt c rd rs rt fl s
  | .sltu c rd rs rt fl => Sys2Proof.Machine.execSltu c rd rs rt fl s
  | .min c rd rs rt fl => Sys2Proof.Machine.execMin c rd rs rt fl s
  | .max c rd rs rt fl => Sys2Proof.Machine.execMax c rd rs rt fl s
  | .minu c rd rs rt fl => Sys2Proof.Machine.execMinu c rd rs rt fl s
  | .maxu c rd rs rt fl => Sys2Proof.Machine.execMaxu c rd rs rt fl s
  | .sll c rd rs rt fl => Sys2Proof.Machine.execSll c rd rs rt fl s
  | .srl c rd rs rt fl => Sys2Proof.Machine.execSrl c rd rs rt fl s
  | .sra c rd rs rt fl => Sys2Proof.Machine.execSra c rd rs rt fl s
  | .ror c rd rs rt fl => Sys2Proof.Machine.execRor c rd rs rt fl s
  | .slli c rd rs amt fl => Sys2Proof.Machine.execSlli c rd rs amt fl s
  | .srli c rd rs amt fl => Sys2Proof.Machine.execSrli c rd rs amt fl s
  | .srai c rd rs amt fl => Sys2Proof.Machine.execSrai c rd rs amt fl s
  | .rori c rd rs amt fl => Sys2Proof.Machine.execRori c rd rs amt fl s
  | .clz c rd rs fl => Sys2Proof.Machine.execClz c rd rs fl s
  | .sextb c rd rs fl => Sys2Proof.Machine.execSextb c rd rs fl s
  | .sexth c rd rs fl => Sys2Proof.Machine.execSexth c rd rs fl s
  | .bext c rd rs rt fl => Sys2Proof.Machine.execBext c rd rs rt fl s
  | .mul c rs rt => Sys2Proof.Machine.execMul c rs rt s
  | .mulu c rs rt => Sys2Proof.Machine.execMulu c rs rt s
  | .mac c rs rt => Sys2Proof.Machine.execMac c rs rt s
  | .macu c rs rt => Sys2Proof.Machine.execMacu c rs rt s
  | .productLands c => Sys2Proof.Machine.execProductLands c s
  | .div c rs rt => Sys2Proof.Machine.execDiv c rs rt s
  | .divu c rs rt => Sys2Proof.Machine.execDivu c rs rt s
  | .addi c rd rs imm => Sys2Proof.Machine.execAddi c rd rs imm s
  | .andi c rd rs imm => Sys2Proof.Machine.execAndi c rd rs imm s
  | .ori c rd rs imm => Sys2Proof.Machine.execOri c rd rs imm s
  | .xori c rd rs imm => Sys2Proof.Machine.execXori c rd rs imm s
  | .lui c rd imm => Sys2Proof.Machine.execLui c rd imm s
  | .slti c rd rs imm => Sys2Proof.Machine.execSlti c rd rs imm s
  | .sltiu c rd rs imm => Sys2Proof.Machine.execSltiu c rd rs imm s
  | .addis c rd rs imm => Sys2Proof.Machine.execAddis c rd rs imm s
  | .beq c rs rt off => Sys2Proof.Machine.execBeq c rs rt off s
  | .bne c rs rt off => Sys2Proof.Machine.execBne c rs rt off s
  | .blt c rs rt off => Sys2Proof.Machine.execBlt c rs rt off s
  | .bge c rs rt off => Sys2Proof.Machine.execBge c rs rt off s
  | .bltu c rs rt off => Sys2Proof.Machine.execBltu c rs rt off s
  | .bgeu c rs rt off => Sys2Proof.Machine.execBgeu c rs rt off s
  | .bf c cond off => Sys2Proof.Machine.execBf c cond off s
  | .j c off => Sys2Proof.Machine.execJ c off s
  | .call c off => Sys2Proof.Machine.execCall c off s
  | .loop c rs n d => Sys2Proof.Machine.execLoop c rs n d s
  | .loopi c n cnt d => Sys2Proof.Machine.execLoopi c n cnt d s
  | .lb c rd rs imm => Sys2Proof.Machine.execLb c rd rs imm s
  | .lbu c rd rs imm => Sys2Proof.Machine.execLbu c rd rs imm s
  | .lh c rd rs imm => Sys2Proof.Machine.execLh c rd rs imm s
  | .lhu c rd rs imm => Sys2Proof.Machine.execLhu c rd rs imm s
  | .lw c rd rs imm => Sys2Proof.Machine.execLw c rd rs imm s
  | .ld c rd rs imm => Sys2Proof.Machine.execLd c rd rs imm s
  | .ll c rd rs imm => Sys2Proof.Machine.execLl c rd rs imm s
  | .sb c rd rs imm => Sys2Proof.Machine.execSb c rd rs imm s
  | .sh c rd rs imm => Sys2Proof.Machine.execSh c rd rs imm s
  | .sw c rd rs imm => Sys2Proof.Machine.execSw c rd rs imm s
  | .sd c rd rs imm => Sys2Proof.Machine.execSd c rd rs imm s
  | .sc c rd rs imm => Sys2Proof.Machine.execSc c rd rs imm s
  | .lbua c rd a16 => Sys2Proof.Machine.execLbua c rd a16 s
  | .lhua c rd a16 => Sys2Proof.Machine.execLhua c rd a16 s
  | .lwa c rd a16 => Sys2Proof.Machine.execLwa c rd a16 s
  | .sba c rd a16 => Sys2Proof.Machine.execSba c rd a16 s
  | .sha c rd a16 => Sys2Proof.Machine.execSha c rd a16 s
  | .swa c rd a16 => Sys2Proof.Machine.execSwa c rd a16 s
  | .lwsp c rd imm => Sys2Proof.Machine.execLwsp c rd imm s
  | .swsp c rd imm => Sys2Proof.Machine.execSwsp c rd imm s
  | .adjsp c imm => Sys2Proof.Machine.execAdjsp c imm s
  | .paddub c rd rs rt => Sys2Proof.Machine.execPaddub c rd rs rt s
  | .psubub c rd rs rt => Sys2Proof.Machine.execPsubub c rd rs rt s
  | .paddh c rd rs rt => Sys2Proof.Machine.execPaddh c rd rs rt s
  | .psubh c rd rs rt => Sys2Proof.Machine.execPsubh c rd rs rt s
  | .pmulh c rd rs rt => Sys2Proof.Machine.execPmulh c rd rs rt s
  | .packub c rd rs rt => Sys2Proof.Machine.execPackub c rd rs rt s
  | .mula c rd rs rt => Sys2Proof.Machine.execMula c rd rs rt s
  | .cov c rd rs rt => Sys2Proof.Machine.execCov c rd rs rt s
  | .blend c rd rs rt => Sys2Proof.Machine.execBlend c rd rs rt s
  | .blendp c rd rs rt => Sys2Proof.Machine.execBlendp c rd rs rt s
  | .palK c k rd rs rt => Sys2Proof.Machine.execPalK c k rd rs rt s
  | .rsqe c rd rs => Sys2Proof.Machine.execRsqe c rd rs s
  | .rsqs c rd rs rt => Sys2Proof.Machine.execRsqs c rd rs rt s
  | .tfetch c rd rs => Sys2Proof.Machine.execTfetch c rd rs s
  | .stl c rs rt => Sys2Proof.Machine.execStl c rs rt s
  | .stl8 c rs rt => Sys2Proof.Machine.execStl8 c rs rt s
  | .brk c => Sys2Proof.Machine.execBrk c s
  | .wait c => Sys2Proof.Machine.execWait c s
  | .syscall c => Sys2Proof.Machine.execSyscall c s
  | .sysret c => Sys2Proof.Machine.execSysret c s
  | .eret c => Sys2Proof.Machine.execEret c s
  | .barp c => Sys2Proof.Machine.execBarp c s
  | .mfs c rd sr => Sys2Proof.Machine.execMfs c rd sr s
  | .mts c sr rs => Sys2Proof.Machine.execMts c sr rs s
  | .jr c rs => Sys2Proof.Machine.execJr c rs s
  | .callr c rs => Sys2Proof.Machine.execCallr c rs s
  | .ret c => Sys2Proof.Machine.execRet c s
  | .push c rs => Sys2Proof.Machine.execPush c rs s
  | .pop c rd => Sys2Proof.Machine.execPop c rd s
  | .complete c rs => Sys2Proof.Machine.execComplete c rs s
  | .interruptAccept => Sys2Proof.Machine.execInterruptAccept s
  | .layerFlip m h l v => Sys2Proof.Machine.execLayerFlip m h l v s
  | .fenceSig m h v => Sys2Proof.Machine.execFenceSig m h v s
  | .fenceTimeout h l => Sys2Proof.Machine.execFenceTimeout h l s
  | .headStart m h v => Sys2Proof.Machine.execHeadStart m h v s
  | .pixelPllLock h => Sys2Proof.Machine.execPixelPllLock h s
  | .pixelPllLockTimeout h => Sys2Proof.Machine.execPixelPllLockTimeout h s
  | .linkTrainingDone h => Sys2Proof.Machine.execLinkTrainingDone h s
  | .rasterStart h => Sys2Proof.Machine.execRasterStart h s
  | .headStartAbandon m h v => Sys2Proof.Machine.execHeadStartAbandon m h v s
  | .headStop m h v => Sys2Proof.Machine.execHeadStop m h v s
  | .headStopWithdraw m h v => Sys2Proof.Machine.execHeadStopWithdraw m h v s
  | .headStopTakeEffect h => Sys2Proof.Machine.execHeadStopTakeEffect h s
  | .pixelPllLockLoss h => Sys2Proof.Machine.execPixelPllLockLoss h s
  | .phyerr h => Sys2Proof.Machine.execPhyerr h s
  | .timingWrite m h r v => Sys2Proof.Machine.execTimingWrite m h r v s
  | .pllWrite m h b v => Sys2Proof.Machine.execPllWrite m h b v s
  | .beamListArm m h v => Sys2Proof.Machine.execBeamListArm m h v s
  | .beamListCheckDone h => Sys2Proof.Machine.execBeamListCheckDone h s
  | .beamListEntry h => Sys2Proof.Machine.execBeamListEntry h s
  | .beamListAudWrite => Sys2Proof.Machine.execBeamListAudWrite s
  | .blmemWrite m h b idx v => Sys2Proof.Machine.execBlmemWrite m h b idx v s
  | .framingFault h => Sys2Proof.Machine.execFramingFault h s
  | .padSignatureFinal h n err => Sys2Proof.Machine.execPadSignatureFinal h n err s
  | .refugeViewExitRequest m h v => Sys2Proof.Machine.execRefugeViewExitRequest m h v s
  | .dvalidTick h => Sys2Proof.Machine.execDvalidTick h s
  | .dvHalfWrite m h v => Sys2Proof.Machine.execDvHalfWrite m h v s
  | .modeReqFull m => Sys2Proof.Machine.execModeReqFull m s
  | .modeReqLean m => Sys2Proof.Machine.execModeReqLean m s
  | .modeReqRefuge m => Sys2Proof.Machine.execModeReqRefuge m s
  | .modeReqHold m => Sys2Proof.Machine.execModeReqHold m s
  | .modeReqDormant m => Sys2Proof.Machine.execModeReqDormant m s
  | .leanEntry cause => Sys2Proof.Machine.execLeanEntry cause s
  | .clockRaise => Sys2Proof.Machine.execClockRaise s
  | .thermalSample t => Sys2Proof.Machine.execThermalSample t s
  | .supwarn => Sys2Proof.Machine.execSupwarn s
  | .pfwNLow => Sys2Proof.Machine.execPfwNLow s
  | .holdDelayExpiry => Sys2Proof.Machine.execHoldDelayExpiry s
  | .holdEntryComplete => Sys2Proof.Machine.execHoldEntryComplete s
  | .pfwNHigh => Sys2Proof.Machine.execPfwNHigh s
  | .holdResume => Sys2Proof.Machine.execHoldResume s
  | .resumeComplete us => Sys2Proof.Machine.execResumeComplete us s
  | .wakeTimerExpiry => Sys2Proof.Machine.execWakeTimerExpiry s
  | .wakePin idx => Sys2Proof.Machine.execWakePin idx s
  | .pragusActivityWake => Sys2Proof.Machine.execPragusActivityWake s
  | .powerOnReset => Sys2Proof.Machine.execPowerOnReset s
  | .resetNAssert ns => Sys2Proof.Machine.execResetNAssert ns s
  | .softwareReset m v => Sys2Proof.Machine.execSoftwareReset m v s
  | .thermWrite m v => Sys2Proof.Machine.execThermWrite m v s
  | .ownerHandover m n v => Sys2Proof.Machine.execOwnerHandover m n v s
  | .handoverComplete n => Sys2Proof.Machine.execHandoverComplete n s
  | .handoverTimeout n => Sys2Proof.Machine.execHandoverTimeout n s
  | .storePwrWrite m v => Sys2Proof.Machine.execStorePwrWrite m v s
  | .bankPowerOnDone n => Sys2Proof.Machine.execBankPowerOnDone n s
  | .eccInjectionArm m v => Sys2Proof.Machine.execEccInjectionArm m v s
  | .scrubGo m v => Sys2Proof.Machine.execScrubGo m v s
  | .scrubRewrite ownerWrites => Sys2Proof.Machine.execScrubRewrite ownerWrites s
  | .scrubDone => Sys2Proof.Machine.execScrubDone s
  | .scrubStop m v => Sys2Proof.Machine.execScrubStop m v s
  | .marchGo m v => Sys2Proof.Machine.execMarchGo m v s
  | .marchDone fails => Sys2Proof.Machine.execMarchDone fails s
  | .blitGo m v => Sys2Proof.Machine.execBlitGo m v s
  | .blitStop m v => Sys2Proof.Machine.execBlitStop m v s
  | .blitEnd => Sys2Proof.Machine.execBlitEnd s
  | .blitNop => Sys2Proof.Machine.execBlitNop s
  | .blitFill => Sys2Proof.Machine.execBlitFill s
  | .blitCopy => Sys2Proof.Machine.execBlitCopy s
  | .blitKey => Sys2Proof.Machine.execBlitKey s
  | .blitBlend => Sys2Proof.Machine.execBlitBlend s
  | .blitConvert => Sys2Proof.Machine.execBlitConvert s
  | .pacedRowStart => Sys2Proof.Machine.execPacedRowStart s
  | .dmaGo m n v => Sys2Proof.Machine.execDmaGo m n v s
  | .dmaArm m n v => Sys2Proof.Machine.execDmaArm m n v s
  | .dmaStop m n v => Sys2Proof.Machine.execDmaStop m n v s
  | .dmaBurst n => Sys2Proof.Machine.execDmaBurst n s
  | .dmaComplete n => Sys2Proof.Machine.execDmaComplete n s
  | .camEnable m n v => Sys2Proof.Machine.execCamEnable m n v s
  | .camDisable m n v => Sys2Proof.Machine.execCamDisable m n v s
  | .frameStartPacket n vc num => Sys2Proof.Machine.execFrameStartPacket n vc num s
  | .csiLongPacket n vc dt hdrOk crcOk bytes => Sys2Proof.Machine.execCsiLongPacket n vc dt hdrOk crcOk bytes s
  | .frameEndPacket n vc => Sys2Proof.Machine.execFrameEndPacket n vc s
  | .cameraFrameComplete n => Sys2Proof.Machine.execCameraFrameComplete n s
  | .audioTick left right late => Sys2Proof.Machine.execAudioTick left right late s
  | .mclklost => Sys2Proof.Machine.execMclklost s
  | .sourceEnable m n v => Sys2Proof.Machine.execSourceEnable m n v s
  | .retrig m n v => Sys2Proof.Machine.execRetrig m n v s
  | .commit m b v => Sys2Proof.Machine.execCommit m b v s
  | .audioEnable m v => Sys2Proof.Machine.execAudioEnable m v s
  | .audRegisterWrite m off v => Sys2Proof.Machine.execAudRegisterWrite m off v s
  | .interruptRequest n => Sys2Proof.Machine.execInterruptRequest n s
  | .icuSet m k v => Sys2Proof.Machine.execIcuSet m k v s
  | .icuPendClear m k v rise => Sys2Proof.Machine.execIcuPendClear m k v rise s
  | .icuEoi m v => Sys2Proof.Machine.execIcuEoi m v s
  | .filtWrite m n v => Sys2Proof.Machine.execFiltWrite m n v s
  | .timerTick t => Sys2Proof.Machine.execTimerTick t s
  | .timerOverflow t => Sys2Proof.Machine.execTimerOverflow t s
  | .timerMatch t ch => Sys2Proof.Machine.execTimerMatch t ch s
  | .timerCapture t ch rising => Sys2Proof.Machine.execTimerCapture t ch rising s
  | .caprRead m t ch => Sys2Proof.Machine.execCaprRead m t ch s
  | .cntWrite m t v => Sys2Proof.Machine.execCntWrite m t v s
  | .wdtService m v => Sys2Proof.Machine.execWdtService m v s
  | .wdtEnable m v => Sys2Proof.Machine.execWdtEnable m v s
  | .wdtWarn => Sys2Proof.Machine.execWdtWarn s
  | .wdtTimeout => Sys2Proof.Machine.execWdtTimeout s
  | .adcStart m v => Sys2Proof.Machine.execAdcStart m v s
  | .adcConversionDone x => Sys2Proof.Machine.execAdcConversionDone x s
  | .adcEnable m v => Sys2Proof.Machine.execAdcEnable m v s
  | .adcReady => Sys2Proof.Machine.execAdcReady s
  | .adcResRead m idx => Sys2Proof.Machine.execAdcResRead m idx s
  | .pragusFrameSend => Sys2Proof.Machine.execPragusFrameSend s
  | .pragusFrameReceive n bytes => Sys2Proof.Machine.execPragusFrameReceive n bytes s
  | .supervisionLost => Sys2Proof.Machine.execSupervisionLost s
  | .pcieLinkUp x2 speed => Sys2Proof.Machine.execPcieLinkUp x2 speed s
  | .linkenWrite m v => Sys2Proof.Machine.execLinkenWrite m v s
  | .bar0Access off be wr => Sys2Proof.Machine.execBar0Access off be wr s
  | .bar2Access off be wr => Sys2Proof.Machine.execBar2Access off be wr s
  | .msixSend m v => Sys2Proof.Machine.execMsixSend m v s
  | .msixMessage vec => Sys2Proof.Machine.execMsixMessage vec s
  | .txpoll m n v => Sys2Proof.Machine.execTxpoll m n v s
  | .ethTransmitFrame n => Sys2Proof.Machine.execEthTransmitFrame n s
  | .ethReceiveFrame n fcsOk bytes => Sys2Proof.Machine.execEthReceiveFrame n fcsOk bytes s
  | .ptpNsRead m => Sys2Proof.Machine.execPtpNsRead m s
  | .ptpNsWrite m v => Sys2Proof.Machine.execPtpNsWrite m v s
  | .ptpAdj m v => Sys2Proof.Machine.execPtpAdj m v s
  | .mdioGo m n v => Sys2Proof.Machine.execMdioGo m n v s
  | .mdioDone n rd => Sys2Proof.Machine.execMdioDone n rd s
  | .uartDataWrite m n v => Sys2Proof.Machine.execUartDataWrite m n v s
  | .uartDataRead m n => Sys2Proof.Machine.execUartDataRead m n s
  | .uartCharacterReceived n d par stop => Sys2Proof.Machine.execUartCharacterReceived n d par stop s
  | .uartCharacterSent n => Sys2Proof.Machine.execUartCharacterSent n s
  | .uartIdle n => Sys2Proof.Machine.execUartIdle n s
  | .spiDataWrite m n v => Sys2Proof.Machine.execSpiDataWrite m n v s
  | .spiDataRead m n => Sys2Proof.Machine.execSpiDataRead m n s
  | .spiFrameDone n miso => Sys2Proof.Machine.execSpiFrameDone n miso s
  | .i2cGo m n v => Sys2Proof.Machine.execI2cGo m n v s
  | .i2cDone n how rx => Sys2Proof.Machine.execI2cDone n how rx s
  | .i2cTimeout n => Sys2Proof.Machine.execI2cTimeout n s
  | .qspiGo m v => Sys2Proof.Machine.execQspiGo m v s
  | .qspiCommandStart => Sys2Proof.Machine.execQspiCommandStart s
  | .qspiDone rx prog => Sys2Proof.Machine.execQspiDone rx prog s
  | .pinSelWrite m off v => Sys2Proof.Machine.execPinSelWrite m off v s
  | .pinSet m k v => Sys2Proof.Machine.execPinSet m k v s
  | .pinClr m k v => Sys2Proof.Machine.execPinClr m k v s
  | .pinTgl m k v => Sys2Proof.Machine.execPinTgl m k v s
  | .privatePortAccess off size wr => Sys2Proof.Machine.execPrivatePortAccess off size wr s
  | .pinEvent n level => Sys2Proof.Machine.execPinEvent n level s
  | .bankSupplyChange k code => Sys2Proof.Machine.execBankSupplyChange k code s
  | .tapReset => Sys2Proof.Machine.execTapReset s
  | .extest => Sys2Proof.Machine.execExtest s
  | .samplePreload cells => Sys2Proof.Machine.execSamplePreload cells s
  | .idcode => Sys2Proof.Machine.execIdcode s
  | .bypass code => Sys2Proof.Machine.execBypass code s
  | .dbgacc wr index data => Sys2Proof.Machine.execDbgacc wr index data s
  | .debugAttach v => Sys2Proof.Machine.execDebugAttach v s
  | .debugDetach v => Sys2Proof.Machine.execDebugDetach v s
  | .sysrst v => Sys2Proof.Machine.execSysrst v s
  | .debugHalt cc u => Sys2Proof.Machine.execDebugHalt cc u s
  | .debugResume cc u => Sys2Proof.Machine.execDebugResume cc u s
  | .debugStep cc u => Sys2Proof.Machine.execDebugStep cc u s
  | .haltTakesEffect c => Sys2Proof.Machine.execHaltTakesEffect c s
  | .dbgRegRead => Sys2Proof.Machine.execDbgRegRead s
  | .dbgRegWrite v => Sys2Proof.Machine.execDbgRegWrite v s
  | .dbgMemWrite v => Sys2Proof.Machine.execDbgMemWrite v s
  | .dbgMemRead v => Sys2Proof.Machine.execDbgMemRead v s
  | .dbgMemTimeout => Sys2Proof.Machine.execDbgMemTimeout s
  | .dbgMemDone => Sys2Proof.Machine.execDbgMemDone s
  | .fuseProgram v => Sys2Proof.Machine.execFuseProgram v s
  | .fuseProgramDone ok => Sys2Proof.Machine.execFuseProgramDone ok s
  | .dbgChanD2cWrite m v => Sys2Proof.Machine.execDbgChanD2cWrite m v s
  | .dbgChanD2cRead m => Sys2Proof.Machine.execDbgChanD2cRead m s
  | .dbgChanC2dWrite m v => Sys2Proof.Machine.execDbgChanC2dWrite m v s
  | .dbgChanC2dRead m => Sys2Proof.Machine.execDbgChanC2dRead m s
  | .illegalInstruction c w => Sys2Proof.Machine.execIllegalInstruction c w s
  | .uncorrectableFetch c => Sys2Proof.Machine.execUncorrectableFetch c s
  | .fetchOutsideInstructionSpace c => Sys2Proof.Machine.execFetchOutsideInstructionSpace c s
  | .corePllRetry p => Sys2Proof.Machine.execCorePllRetry p s
  | .supwarnClear => Sys2Proof.Machine.execSupwarnClear s
  | .recoveredVerticalSync h => Sys2Proof.Machine.execRecoveredVerticalSync h s
  | .pcieLinkDown => Sys2Proof.Machine.execPcieLinkDown s
  | .configurationRequest r => Sys2Proof.Machine.execConfigurationRequest r s

end Sys2Proof.Machine
end

