-- ==== Sys2Proof/Safety.lean ====
section
/-! DEFINITION. What counts as a safe state, and the terms in which the claims about the machine are stated. -/

namespace Sys2Proof.Machine

/-! ### Canonical forms -/

/-- The byte memory is in canonical form: addresses strictly rising, no entry equal to what an unlisted address reads as. -/
abbrev Memory.wf (m : List Host.Cell) : Bool := tabWf memDefault m

/-- A context's general registers are in canonical form and g0 has no entry (R79). -/
abbrev CoreSt.wf (x : CoreSt) : Bool := tabWfFrom (dflt 0) 1 x.g

/-- The canonical forms of the whole state: the memory and the register file. -/
abbrev State.wf (s : State) : Bool := Memory.wf s.mem && tabWf regReset s.regs

/-! ### Completion and frames -/

/-- The command `c` answers a next state, and that state has property `P`. -/
def Runs (c : Instr) (s : State) (P : State → Prop) : Prop := ∃ t, exec c s = .next t ∧ P t

/-- Every byte of memory reads as before. -/
def SameMem (s t : State) : Prop := ∀ k, t.rawByte k = s.rawByte k

/-- Every register of the map reads as before, but for those that `p` names. -/
def SameRegs (p : Nat → Prop) (s t : State) : Prop := ∀ a, ¬ p a → t.rd a = s.rd a

/-- Every context but `c` is as before. -/
def SameCtxs (c : Ctx) (s t : State) : Prop := ∀ d, d ≠ c → t.core d = s.core d

/-- Nothing outside the record of context `c` has changed: no other context, no register of the map, no byte of memory, no
record of any block. -/
def OnlyCtx (c : Ctx) (s t : State) : Prop :=
  t = { s with cc := t.cc, eng := t.eng } ∧ SameCtxs c s t ∧ SameMem s t ∧ SameRegs (fun _ => False) s t

/-- Nothing has changed but the registers of the map at the addresses that `p` names. -/
def OnlyRegs (p : Nat → Prop) (s t : State) : Prop := t = { s with regs := t.regs } ∧ SameRegs p s t

/-- `t` is `r` but for what the event lines have seen of their pins since (R350): their edge detectors, and the bits of
PIN_EVT_STATUS that they have set. -/
def UpToEvents (r t : State) : Prop :=
  t = { r with regs := t.regs, pins := { r.pins with evtSeen := t.pins.evtSeen, evtInit := t.pins.evtInit } } ∧
  SameRegs (fun a => a = R.PIN_EVT_STATUS) r t ∧
  ∀ i, bitOf (r.rd R.PIN_EVT_STATUS) i = true → bitOf (t.rd R.PIN_EVT_STATUS) i = true

/-- The command `c` answers a next state, which is a state with property `P` but for what the event lines have seen. -/
def RunsUpToEvents (c : Instr) (s : State) (P : State → Prop) : Prop := Runs c s fun t => ∃ r, UpToEvents r t ∧ P r

/-! ### Instructions -/

/-- Context `c` issues instruction `i`: it executes (started, awake, not parked, halted or held, its clock running), its PC
lies in its instruction space (R85), the instruction is legal for it (R126), and no debugger is attached, whose comparators
could halt it before the instruction (R370). -/
def State.Issues (s : State) (c : Ctx) (i : Instr) : Prop :=
  s.runnable c = true ∧ fetchable c (s.core c).pc = true ∧ legalInsn i = true ∧ s.flag F.DBG_CTRL_ATTACH = false

/-- The time of issue. -/
def State.issueTime (s : State) (c : Ctx) : Nat := max s.now (s.core c).ready

/-- The context as the instruction finds it: products whose time has come have landed (R94, R95). -/
def State.atIssue (s : State) (c : Ctx) : CoreSt :=
  landDue (s.issueTime c) { s.core c with ready := s.issueTime c, skipCmp := none } (s.core c).products

/-- The state as the instruction finds it. -/
def State.found (s : State) (c : Ctx) : State := s.setCore c (s.atIssue c)

/-- From record `x` to record `y` nothing changed but the general registers, STATUS, the PC with the loop counts, and the
time of the next issue. -/
def CoreSt.KeepsBut (x y : CoreSt) : Prop :=
  y = { x with g := y.g, status := y.status, pc := y.pc, lc0 := y.lc0, lc1 := y.lc1, ready := y.ready }

/-- Execution goes on with the next word, or by the loop-end rule of R105 while loop-end checks are active. -/
def CoreSt.GoesOn (x y : CoreSt) : Prop :=
  let z := if bitOf x.status stLPE then CoreSt.loopEnd { x with pc := x.pc + 4 } x.pc else { x with pc := x.pc + 4 }
  y.pc = z.pc ∧ y.lc0 = z.lc0 ∧ y.lc1 = z.lc1

/-- The general registers after a result `v` for rd: a write to g0 is discarded (R79), every other register is kept. -/
def CoreSt.Writes (x y : CoreSt) (rd : RegNo) (v : Word) : Prop :=
  ∀ r, y.gr r = if r = rd ∧ r ≠ 0 then v else x.gr r

end Sys2Proof.Machine
end

