-- ==== Sys2Proof/Certificates/Slice0/Obligations.lean ====
section
/-! DEFINITION. The statements for the provers. Each says of the commands it names that they answer a next state, what that
state holds, and what they leave alone. A clause that rests on a choice of the model's own says so and names its log entry. -/

open Sys2Proof Sys2Proof.Machine

namespace Sys2Proof.Machine

/-! ### Terms of the instruction statements -/

/-- STATUS with the four flags as given and every other bit kept (R81, R90). -/
def FlagsAre (old new : Word) (n z c v : Bool) : Prop :=
  bitOf new 31 = n ∧ bitOf new 30 = z ∧ bitOf new 29 = c ∧ bitOf new 28 = v ∧ ∀ i, i < 28 → bitOf new i = bitOf old i

/-- Instruction `i` in context `c` completes with result `v` in rd: it replaces the flags if `fl` says so, with C and V as
given, and else leaves STATUS; no other register, context, register of the map or byte of memory changes. It does not
complete where it would set V with STATUS.OVT = 1 (R93). -/
def IntResult (s : State) (c : Ctx) (i : Instr) (rd : RegNo) (fl : Bool) (v : Word) (cf vf : Bool) : Prop :=
  s.Issues c i → (fl && vf && bitOf (s.core c).status stOVT) = false →
    Runs i s fun t =>
      OnlyCtx c s t ∧ (s.atIssue c).KeepsBut (t.core c) ∧ (s.core c).Writes (t.core c) rd v ∧
      (s.atIssue c).GoesOn (t.core c) ∧
      (if fl then FlagsAre (s.core c).status (t.core c).status v.msb (v == 0) cf vf
        else (t.core c).status = (s.core c).status)

/-- The same for a result that clears C and V. -/
abbrev PlainResult (s : State) (c : Ctx) (i : Instr) (rd : RegNo) (fl : Bool) (v : Word) : Prop :=
  IntResult s c i rd fl v false false

end Sys2Proof.Machine

namespace Sys2Proof.Machine

/-- Instruction `i` completes in context `c`: nothing outside the context's record changes, the general registers and STATUS
stay, and `P` says what becomes of the record. -/
def CtxEffect (s : State) (c : Ctx) (i : Instr) (P : CoreSt → Prop) : Prop :=
  s.Issues c i → Runs i s fun t =>
    OnlyCtx c s t ∧ (∀ r, (t.core c).gr r = (s.core c).gr r) ∧ (t.core c).status = (s.core c).status ∧ P (t.core c)

/-- Instruction `i` raises the exception with cause `k` in place of completing, on the state as it found it. -/
def RaisesOn (f : State) (i : Instr) (s : State) (c : Ctx) (k : Cause) : Prop :=
  ∃ t cyc, exec i s = .next (f.raise c t cyc k)

/-- The same where the instruction has changed nothing before. -/
def Raises (i : Instr) (s : State) (c : Ctx) (k : Cause) : Prop := RaisesOn (s.found c) i s c k

/-- After a load: memory and the other contexts are as they were, and with no error found in memory so is every register of
the map. -/
def LoadFrame (s t : State) (c : Ctx) (e : Ecc) : Prop :=
  SameMem s t ∧ SameCtxs c s t ∧ (e = .clean → SameRegs (fun _ => False) s t)

/-- After a store of bytes `bs` at key `k`: those bytes read as stored and every other byte as before; a reservation may be
lost (R101) and an armed error injection used up (R241); no other register of the map and nothing else of another context
has changed. -/
def StoreFrame (s t : State) (c : Ctx) (k : Nat) (bs : List Byte) : Prop :=
  (∀ j, t.rawByte j = if k ≤ j ∧ j < k + bs.length then bs.getD (j - k) 0 else s.rawByte j) ∧
  (∀ d, d ≠ c → t.core d = { s.core d with resv := (t.core d).resv }) ∧
  SameRegs (fun a => a = R.STORE_ECC_INJ) s t

/-- A branch or jump: the PC is the target where it is taken, and goes on where it is not; only PERF_SQUASH may change
outside the context's record (R89). -/
def BranchEffect (s : State) (c : Ctx) (i : Instr) (target : Word) (taken : Prop) [Decidable taken] : Prop :=
  s.Issues c i → Runs i s fun t =>
    SameMem s t ∧ SameCtxs c s t ∧ SameRegs (fun a => a = R.PERF_SQUASH) s t ∧
    (∀ r, (t.core c).gr r = (s.core c).gr r) ∧ (t.core c).status = (s.core c).status ∧ (t.core c).sp = (s.core c).sp ∧
    (if taken then (t.core c).pc = target ∧ (t.core c).lc0 = (s.core c).lc0 ∧ (t.core c).lc1 = (s.core c).lc1
      else (s.core c).GoesOn (t.core c))

/-- The special registers 1 to 23 of a record, in the order of their numbers (R80). -/
def CoreSt.specials (x : CoreSt) : List Word :=
  [x.status, x.bnk, x.sp, x.rsp, x.lc0, x.ls0, x.le0, x.lc1, x.ls1, x.le1, x.mlo, x.mhi, x.epc, x.estat, x.ecause, x.eaddr,
   x.vbase, x.spc, x.sstat, x.ssp, x.sysent, x.dfpc, x.ctxid]

/-- The bits of special register `sr` that an MTS at privileged level writes (R80, R81, R120). -/
def specialMask (sr : Nat) : Word :=
  match sr with
  | 1 | 14 | 19 => 0xF0000F07
  | 2 => 0xFFFF
  | 13 | 18 | 21 | 22 => 0xFFFFFFFC
  | 15 => 0x00FF07FF
  | 17 => 0xFFFFFC00
  | 23 => 0xFFF
  | _ => 0xFFFFFFFF

end Sys2Proof.Machine

/-! ### The instruction set -/

/-- R90, R91: the logical, arithmetic, compare and select functions of the REG group. C of an addition is the carry out, of a
subtraction "no borrow"; V is set when the exact signed result is not the 32-bit one; NEG and ABS set the flags whatever S
is. -/
def Obligations.IntegerArithmetic : Prop :=
  ∀ (s : State) (c : Ctx) (rd rs rt : RegNo) (fl : Bool),
    let x := s.core c
    let a := x.gr rs
    let b := x.gr rt
    PlainResult s c (.or c rd rs rt fl) rd fl (a ||| b) ∧
    PlainResult s c (.and c rd rs rt fl) rd fl (a &&& b) ∧
    PlainResult s c (.xor c rd rs rt fl) rd fl (a ^^^ b) ∧
    PlainResult s c (.andn c rd rs rt fl) rd fl (a &&& ~~~b) ∧
    IntResult s c (.add c rd rs rt fl) rd fl (a + b) (decide (2 ^ 32 ≤ a.toNat + b.toNat))
      (decide (a.toInt + b.toInt ≠ (a + b).toInt)) ∧
    IntResult s c (.sub c rd rs rt fl) rd fl (a - b) (decide (b.toNat ≤ a.toNat))
      (decide (a.toInt - b.toInt ≠ (a - b).toInt)) ∧
    (let k := x.fC.toNat
     let v := a + b + BitVec.ofNat 32 k
     IntResult s c (.adc c rd rs rt fl) rd fl v (decide (2 ^ 32 ≤ a.toNat + b.toNat + k))
       (decide (a.toInt + b.toInt + (k : Int) ≠ v.toInt))) ∧
    (let k := 1 - x.fC.toNat
     let v := a - b - BitVec.ofNat 32 k
     IntResult s c (.sbc c rd rs rt fl) rd fl v (decide (b.toNat + k ≤ a.toNat))
       (decide (a.toInt - b.toInt - (k : Int) ≠ v.toInt))) ∧
    PlainResult s c (.slt c rd rs rt fl) rd fl (if a.toInt < b.toInt then 1 else 0) ∧
    PlainResult s c (.sltu c rd rs rt fl) rd fl (if a.toNat < b.toNat then 1 else 0) ∧
    PlainResult s c (.min c rd rs rt fl) rd fl (if a.toInt ≤ b.toInt then a else b) ∧
    PlainResult s c (.max c rd rs rt fl) rd fl (if a.toInt ≤ b.toInt then b else a) ∧
    PlainResult s c (.minu c rd rs rt fl) rd fl (if a.toNat ≤ b.toNat then a else b) ∧
    PlainResult s c (.maxu c rd rs rt fl) rd fl (if a.toNat ≤ b.toNat then b else a) ∧
    IntResult s c (.neg c rd rs fl) rd true (0 - a) (a == 0) (a == 0x80000000) ∧
    IntResult s c (.abs c rd rs fl) rd true (if a.toInt < 0 then 0 - a else a) false (a == 0x80000000)

/-- R91: shifts by rt[5:0] or by the amount in the rt field, rotations, and the bit and byte functions. -/
def Obligations.ShiftsAndBytes : Prop :=
  ∀ (s : State) (c : Ctx) (rd rs rt : RegNo) (amt : BitVec 5) (fl : Bool),
    let a := (s.core c).gr rs
    let b := (s.core c).gr rt
    let n := b.toNat % 64
    PlainResult s c (.sll c rd rs rt fl) rd fl (if 32 ≤ n then 0 else BitVec.ofNat 32 (a.toNat * 2 ^ n)) ∧
    PlainResult s c (.srl c rd rs rt fl) rd fl (if 32 ≤ n then 0 else BitVec.ofNat 32 (a.toNat / 2 ^ n)) ∧
    PlainResult s c (.sra c rd rs rt fl) rd fl (BitVec.ofInt 32 (a.toInt / 2 ^ n)) ∧
    PlainResult s c (.ror c rd rs rt fl) rd fl (a.rotateRight (b.toNat % 32)) ∧
    PlainResult s c (.slli c rd rs amt fl) rd fl (BitVec.ofNat 32 (a.toNat * 2 ^ amt.toNat)) ∧
    PlainResult s c (.srli c rd rs amt fl) rd fl (BitVec.ofNat 32 (a.toNat / 2 ^ amt.toNat)) ∧
    PlainResult s c (.srai c rd rs amt fl) rd fl (BitVec.ofInt 32 (a.toInt / 2 ^ amt.toNat)) ∧
    PlainResult s c (.rori c rd rs amt fl) rd fl (a.rotateRight amt.toNat) ∧
    PlainResult s c (.sextb c rd rs fl) rd fl (BitVec.ofInt 32 (Int.bmod a.toNat 256)) ∧
    PlainResult s c (.sexth c rd rs fl) rd fl (BitVec.ofInt 32 (Int.bmod a.toNat 65536)) ∧
    PlainResult s c (.bext c rd rs rt fl) rd fl (BitVec.ofNat 32 (a.toNat / 2 ^ (8 * (b.toNat % 4)) % 256)) ∧
    (∀ z, z ≤ 32 → (∀ i, 32 - z ≤ i → bitOf a i = false) → (z < 32 → bitOf a (31 - z) = true) →
      PlainResult s c (.clz c rd rs fl) rd fl (BitVec.ofNat 32 z))

/-- R92: the immediate instructions, and ADJSP (R97). -/
def Obligations.Immediates : Prop :=
  ∀ (s : State) (c : Ctx) (rd rs : RegNo) (imm : BitVec 16),
    let x := s.core c
    let a := x.gr rs
    let k := imm.signExtend 32
    let u := imm.setWidth 32
    PlainResult s c (.addi c rd rs imm) rd false (a + k) ∧
    PlainResult s c (.andi c rd rs imm) rd false (a &&& u) ∧
    PlainResult s c (.ori c rd rs imm) rd false (a ||| u) ∧
    PlainResult s c (.xori c rd rs imm) rd false (a ^^^ u) ∧
    PlainResult s c (.lui c rd imm) rd false (BitVec.ofNat 32 (imm.toNat * 65536)) ∧
    PlainResult s c (.slti c rd rs imm) rd false (if a.toInt < imm.toInt then 1 else 0) ∧
    PlainResult s c (.sltiu c rd rs imm) rd false (if a.toNat < k.toNat then 1 else 0) ∧
    IntResult s c (.addis c rd rs imm) rd true (a + k) (decide (2 ^ 32 ≤ a.toNat + k.toNat))
      (decide (a.toInt + k.toInt ≠ (a + k).toInt)) ∧
    (s.Issues c (.adjsp c imm) → Runs (.adjsp c imm) s fun t =>
      OnlyCtx c s t ∧ (t.core c).sp = x.sp + k ∧ (s.atIssue c).GoesOn (t.core c) ∧
      { s.atIssue c with sp := (t.core c).sp }.KeepsBut (t.core c) ∧
      (∀ r, (t.core c).gr r = x.gr r) ∧ (t.core c).status = x.status)

/-- R93: an S form of ADD, SUB, ADC or SBC, an ADDIS, a NEG or an ABS that would set V with STATUS.OVT = 1 raises exception 9
on the state it found, so that rd, MLO, MHI and STATUS keep their values for the entry. -/
def Obligations.OverflowTraps : Prop :=
  ∀ (s : State) (c : Ctx) (rd rs rt : RegNo) (fl : Bool) (imm : BitVec 16),
    let x := s.core c
    let a := x.gr rs
    let b := x.gr rt
    let k := imm.signExtend 32
    let cy : Int := x.fC.toNat
    let ovf := fun v : Int => v < -(2 ^ 31) ∨ 2 ^ 31 ≤ v
    bitOf x.status stOVT = true →
    (s.Issues c (.add c rd rs rt true) → ovf (a.toInt + b.toInt) → Raises (.add c rd rs rt true) s c { num := 9 }) ∧
    (s.Issues c (.sub c rd rs rt true) → ovf (a.toInt - b.toInt) → Raises (.sub c rd rs rt true) s c { num := 9 }) ∧
    (s.Issues c (.adc c rd rs rt true) → ovf (a.toInt + b.toInt + cy) →
      Raises (.adc c rd rs rt true) s c { num := 9 }) ∧
    (s.Issues c (.sbc c rd rs rt true) → ovf (a.toInt - b.toInt - (1 - cy)) →
      Raises (.sbc c rd rs rt true) s c { num := 9 }) ∧
    (s.Issues c (.addis c rd rs imm) → ovf (a.toInt + k.toInt) → Raises (.addis c rd rs imm) s c { num := 9 }) ∧
    (s.Issues c (.neg c rd rs fl) → a = 0x80000000 → Raises (.neg c rd rs fl) s c { num := 9 }) ∧
    (s.Issues c (.abs c rd rs fl) → a = 0x80000000 → Raises (.abs c rd rs fl) s c { num := 9 })

/-- R94, R95: a multiplication puts its product in flight and changes nothing else that an instruction can read; a MAC adds to
the accumulator with every product in flight; a product in flight has landed for an instruction that issues at its time or
later, and not before; PRODUCT_LANDS lets the oldest land. The model's readings in it: log entry 6. -/
def Obligations.Products : Prop :=
  ∀ (s : State) (c : Ctx) (rs rt : RegNo),
    let x := s.core c
    let f := s.atIssue c
    let sp := (x.gr rs).toInt * (x.gr rt).toInt
    let up := (x.gr rs).toNat * (x.gr rt).toNat
    let acc := match f.products.getLast? with
      | some p => p.2
      | none => f.mhi ++ f.mlo
    let started := fun (v : BitVec 64) (y : CoreSt) =>
      y.products = f.products ++ [(s.issueTime c + 3 * s.perOf c, v)] ∧ y.mlo = f.mlo ∧ y.mhi = f.mhi ∧ f.GoesOn y ∧
      { f with products := y.products }.KeepsBut y
    CtxEffect s c (.mul c rs rt) (started (BitVec.ofInt 64 sp)) ∧
    CtxEffect s c (.mulu c rs rt) (started (BitVec.ofNat 64 up)) ∧
    CtxEffect s c (.mac c rs rt) (started (acc + BitVec.ofInt 64 sp)) ∧
    CtxEffect s c (.macu c rs rt) (started (acc + BitVec.ofNat 64 up)) ∧
    (∀ d v, x.products = [(d, v)] → d ≤ s.issueTime c → f.mlo = v.setWidth 32 ∧ f.mhi = (v >>> 32).setWidth 32) ∧
    (∀ d v, x.products = [(d, v)] → s.issueTime c < d → f.mlo = x.mlo ∧ f.mhi = x.mhi) ∧
    (∀ d v ps, x.products = (d, v) :: ps → Runs (.productLands c) s fun t =>
      (t.core c) = { x with mlo := v.setWidth 32, mhi := (v >>> 32).setWidth 32, products := ps } ∧ s.now ≤ t.now ∧
      d ≤ t.now ∧ SameCtxs c s t ∧ SameMem s t ∧ SameRegs (fun _ => False) s t)

/-- R96: DIV and DIVU: quotient truncated toward zero, remainder with the dividend's sign, products in flight landed first,
the flags and the two traps. -/
def Obligations.Divides : Prop :=
  ∀ (s : State) (c : Ctx) (rs rt : RegNo),
    let x := s.core c
    let a := x.gr rs
    let b := x.gr rt
    let f := s.atIssue c
    let ends := fun (i : Instr) (q r : Word) (z v : Bool) => Runs i s fun t =>
      OnlyCtx c s t ∧ (t.core c).mlo = q ∧ (t.core c).mhi = r ∧ (t.core c).products = [] ∧
      FlagsAre x.status (t.core c).status false z false v ∧ f.GoesOn (t.core c) ∧ ∀ n, (t.core c).gr n = x.gr n
    (s.Issues c (.div c rs rt) → b ≠ 0 → ¬ (a = 0x80000000 ∧ b = 0xFFFFFFFF) →
      ends (.div c rs rt) (BitVec.ofInt 32 (a.toInt.tdiv b.toInt)) (BitVec.ofInt 32 (a.toInt.tmod b.toInt)) false false) ∧
    (s.Issues c (.divu c rs rt) → b ≠ 0 →
      ends (.divu c rs rt) (BitVec.ofNat 32 (a.toNat / b.toNat)) (BitVec.ofNat 32 (a.toNat % b.toNat)) false false) ∧
    (s.Issues c (.div c rs rt) → a = 0x80000000 → b = 0xFFFFFFFF → bitOf x.status stOVT = false →
      ends (.div c rs rt) 0x80000000 0 false true) ∧
    (∀ i, i = .div c rs rt ∨ i = .divu c rs rt → s.Issues c i → b = 0 → bitOf x.status stDZT = false →
      ends i 0xFFFFFFFF a true false) ∧
    (∀ i, i = .div c rs rt ∨ i = .divu c rs rt → s.Issues c i → b = 0 → bitOf x.status stDZT = true →
      RaisesOn ((s.found c).setCore c f.landAll) i s c { num := 8 }) ∧
    (s.Issues c (.div c rs rt) → a = 0x80000000 → b = 0xFFFFFFFF → bitOf x.status stOVT = true →
      RaisesOn ((s.found c).setCore c f.landAll) (.div c rs rt) s c { num := 9 })

/-- R84, R102, R103: the conditional branches by register and by flag, J and JR, with their targets; BARP bars the prediction of
the next transfer and does nothing else (R88). The model's readings in it: log entry 17. -/
def Obligations.Branches : Prop :=
  ∀ (s : State) (c : Ctx) (rs rt : RegNo) (off : BitVec 16) (o26 : BitVec 26) (code : BitVec 5),
    let x := s.core c
    let a := x.gr rs
    let b := x.gr rt
    let near := x.pc + BitVec.ofInt 32 (4 * off.toInt)
    BranchEffect s c (.beq c rs rt off) near (a = b) ∧
    BranchEffect s c (.bne c rs rt off) near (a ≠ b) ∧
    BranchEffect s c (.blt c rs rt off) near (a.toInt < b.toInt) ∧
    BranchEffect s c (.bge c rs rt off) near (b.toInt ≤ a.toInt) ∧
    BranchEffect s c (.bltu c rs rt off) near (a.toNat < b.toNat) ∧
    BranchEffect s c (.bgeu c rs rt off) near (b.toNat ≤ a.toNat) ∧
    BranchEffect s c (.bf c code off) near
      ([x.fZ, !x.fZ, x.fC, !x.fC, x.fN, !x.fN, x.fV, !x.fV, x.fC && !x.fZ, !x.fC || x.fZ, x.fN == x.fV, x.fN != x.fV,
        !x.fZ && x.fN == x.fV, x.fZ || x.fN != x.fV].getD code.toNat false = true) ∧
    BranchEffect s c (.j c o26) (x.pc + BitVec.ofInt 32 (4 * o26.toInt)) True ∧
    (bitsOf a 0 2 = 0 → BranchEffect s c (.jr c rs) a True) ∧
    (s.Issues c (.jr c rs) → bitsOf a 0 2 ≠ 0 → Raises (.jr c rs) s c { num := 3, acc := 7, eaddr := a }) ∧
    CtxEffect s c (.barp c) (fun y => y.barp = isCc c ∧ (s.atIssue c).GoesOn y)

/-- R104, R105: LOOP and LOOPI set a level's start, end and count and LPE, and skip the body on count 0; the loop-end check. The
model's readings in it: log entry 50. -/
def Obligations.Loops : Prop :=
  ∀ (s : State) (c : Ctx) (rs : RegNo) (cnt : BitVec 9) (d : BitVec 16),
    let x := s.core c
    let le := x.pc + BitVec.ofNat 32 (4 * d.toNat)
    let armed := fun (i : Instr) (n : Bool) (k : Word) => s.Issues c i → Runs i s fun t =>
      let y := t.core c
      OnlyCtx c s t ∧ (∀ r, y.gr r = x.gr r) ∧ (∀ j, bitOf y.status j = (decide (j = stLPE) || bitOf x.status j)) ∧
      (if n then y.ls1 = x.pc + 4 ∧ y.le1 = le ∧ y.ls0 = x.ls0 ∧ y.le0 = x.le0
        else y.ls0 = x.pc + 4 ∧ y.le0 = le ∧ y.ls1 = x.ls1 ∧ y.le1 = x.le1) ∧
      (k = 0 → y.pc = le + 4 ∧ (if n then y.lc1 = 0 ∧ y.lc0 = x.lc0 else y.lc0 = 0 ∧ y.lc1 = x.lc1)) ∧
      (k ≠ 0 →
        let w := if n then { x with ls1 := x.pc + 4, le1 := le, lc1 := k, pc := x.pc + 4 }
          else { x with ls0 := x.pc + 4, le0 := le, lc0 := k, pc := x.pc + 4 }
        y.pc = (w.loopEnd x.pc).pc ∧ y.lc0 = (w.loopEnd x.pc).lc0 ∧ y.lc1 = (w.loopEnd x.pc).lc1)
    (∀ n, armed (.loop c rs n d) n (x.gr rs)) ∧
    (∀ n, armed (.loopi c n cnt d) n (cnt.setWidth 32)) ∧
    (∀ y : CoreSt, ∀ a : Word,
      (a = y.le1 → 1 < y.lc1.toNat → y.loopEnd a = { y with lc1 := y.lc1 - 1, pc := y.ls1 }) ∧
      (a = y.le1 → y.lc1 = 1 → y.loopEnd a = { y with lc1 := 0 }) ∧
      (¬ (a = y.le1 ∧ y.lc1 ≠ 0) → a = y.le0 → 1 < y.lc0.toNat → y.loopEnd a = { y with lc0 := y.lc0 - 1, pc := y.ls0 }) ∧
      (¬ (a = y.le1 ∧ y.lc1 ≠ 0) → a = y.le0 → y.lc0 = 1 → y.loopEnd a = { y with lc0 := 0 }) ∧
      (¬ (a = y.le1 ∧ y.lc1 ≠ 0) → ¬ (a = y.le0 ∧ y.lc0 ≠ 0) → y.loopEnd a = y))

/-- R97 to R99: every load of a byte, half-word, word or pair from a memory, at the address its form computes: the bytes of
memory, corrected where error control could, go to rd zero- or sign-extended; LD into g0 writes g1 only. The model's
readings in it: log entry 6. -/
def Obligations.Loads : Prop :=
  ∀ (s : State) (c : Ctx) (rd rs : RegNo) (imm : BitVec 16) (k : Nat) (bs : List Byte) (e : Ecc),
    let x := s.core c
    let based := x.gr rs + imm.signExtend 32
    let short := BitVec.ofNat 32 (x.bnk.toNat % 65536 * 65536 + imm.toNat)
    let onSp := x.sp + imm.signExtend 32
    let loads := fun (i : Instr) (a : Word) (n : Nat) (v : List Byte → Word) =>
      s.Issues c i → a.toNat % n = 0 → (s.found c).whereOf c a.toNat n false = .mem k →
      (s.found c).eccBytes k n = (bs, e) → e ≠ .uncorr →
      Runs i s fun t =>
        LoadFrame s t c e ∧ x.Writes (t.core c) rd (v bs) ∧ (s.atIssue c).KeepsBut (t.core c) ∧
        (t.core c).status = x.status ∧ (s.atIssue c).GoesOn (t.core c)
    let z := fun bs => BitVec.ofNat 32 (leNat bs)
    let s8 := fun bs => BitVec.ofInt 32 (Int.bmod (leNat bs) 256)
    let s16 := fun bs => BitVec.ofInt 32 (Int.bmod (leNat bs) 65536)
    loads (.lb c rd rs imm) based 1 s8 ∧ loads (.lbu c rd rs imm) based 1 z ∧
    loads (.lh c rd rs imm) based 2 s16 ∧ loads (.lhu c rd rs imm) based 2 z ∧
    loads (.lw c rd rs imm) based 4 z ∧
    loads (.lbua c rd imm) short 1 z ∧ loads (.lhua c rd imm) short 2 z ∧ loads (.lwa c rd imm) short 4 z ∧
    loads (.lwsp c rd imm) onSp 4 z ∧
    (s.Issues c (.ld c rd rs imm) → based.toNat % 8 = 0 → (s.found c).whereOf c based.toNat 8 false = .mem k →
      (s.found c).eccBytes k 8 = (bs, e) → e ≠ .uncorr →
      Runs (.ld c rd rs imm) s fun t =>
        LoadFrame s t c e ∧ (s.atIssue c).KeepsBut (t.core c) ∧ (t.core c).status = x.status ∧
        ∀ r, (t.core c).gr r = if r = 0 then 0 else if r = rd then z (bs.take 4) else if r = rd + 1 then z (bs.drop 4)
          else x.gr r)

/-- R97 to R99: every store of a byte, half-word, word or pair to a memory: the low bytes of rd stand at the address its form
computes, the least significant at the lowest address, and every other byte of memory is as before. The model's readings in
it: log entry 6. -/
def Obligations.Stores : Prop :=
  ∀ (s : State) (c : Ctx) (rd rs : RegNo) (imm : BitVec 16) (k : Nat),
    let x := s.core c
    let based := x.gr rs + imm.signExtend 32
    let short := BitVec.ofNat 32 (x.bnk.toNat % 65536 * 65536 + imm.toNat)
    let onSp := x.sp + imm.signExtend 32
    let stores := fun (i : Instr) (a : Word) (bs : List Byte) =>
      s.Issues c i → a.toNat % bs.length = 0 → (s.found c).whereOf c a.toNat bs.length true = .mem k →
      Runs i s fun t =>
        StoreFrame s t c k bs ∧ (∀ r, (t.core c).gr r = x.gr r) ∧ (t.core c).status = x.status ∧
        { s.atIssue c with resv := (t.core c).resv }.KeepsBut (t.core c) ∧ (s.atIssue c).GoesOn (t.core c)
    let v := (x.gr rd).toNat
    stores (.sb c rd rs imm) based (leBytes 1 v) ∧ stores (.sh c rd rs imm) based (leBytes 2 v) ∧
    stores (.sw c rd rs imm) based (leBytes 4 v) ∧
    stores (.sd c rd rs imm) based (leBytes 4 v ++ leBytes 4 (x.gr (rd + 1)).toNat) ∧
    stores (.sba c rd imm) short (leBytes 1 v) ∧ stores (.sha c rd imm) short (leBytes 2 v) ∧
    stores (.swa c rd imm) short (leBytes 4 v) ∧ stores (.swsp c rd imm) onSp (leBytes 4 v)

/-- R98, R100, R229: a misaligned access raises exception 3, a refused one exception 6 and an uncorrectable load exception 5, each
with the effective address; a refusal by ownership is recorded with Store's, one by the array with the array's; a push or pop that
is misaligned or would be refused raises exception 7 before any access, and an uncorrectable pop exception 5. The model's readings
in it: log entry 24. -/
def Obligations.AccessFaults : Prop :=
  ∀ (s : State) (c : Ctx) (rd rs : RegNo) (imm : BitVec 16) (o26 : BitVec 26) (kind eng sub : Nat),
    let x := s.core c
    let rp := if x.split then x.rsp else x.sp
    let based := x.gr rs + imm.signExtend 32
    let short := BitVec.ofNat 32 (x.bnk.toNat % 65536 * 65536 + imm.toNat)
    let onSp := x.sp + imm.signExtend 32
    let g := s.found c
    let refused := fun (i : Instr) (a : Word) (n acc : Nat) (wr : Bool) =>
      (a.toNat % n ≠ 0 → Raises i s c { num := 3, acc := acc, eaddr := a }) ∧
      (∀ sub, a.toNat % n = 0 → g.whereOf c a.toNat n wr = .refused sub 0 0 → sub ≠ 2 →
        Raises i s c { num := 6, sub := sub, acc := acc, eaddr := a }) ∧
      (a.toNat % n = 0 → g.whereOf c a.toNat n wr = .refused 2 0 0 →
        RaisesOn (g.noteOwner (g.reqOf c) a.toNat wr) i s c { num := 6, sub := 2, acc := acc, eaddr := a }) ∧
      (a.toNat % n = 0 → g.whereOf c a.toNat n wr = .refused sub kind eng → sub ≠ 2 → kind ≠ 0 →
        RaisesOn (g.arrayErr (State.areqOf c) kind eng a.toNat).draw i s c { num := 6, sub := sub, acc := acc, eaddr := a })
    let spoilt := fun (i : Instr) (a : Word) (n acc : Nat) =>
      ∀ k bs, a.toNat % n = 0 → g.whereOf c a.toNat n false = .mem k → g.eccBytes k n = (bs, .uncorr) →
        ∃ f, RaisesOn f i s c { num := 5, acc := acc, eaddr := a } ∧ f.core c = g.core c ∧ SameMem s f
    let load := fun (i : Instr) (a : Word) (n : Nat) => s.Issues c i → refused i a n 2 false ∧ spoilt i a n 2
    let store := fun (i : Instr) (a : Word) (n : Nat) => s.Issues c i → refused i a n 3 true
    let pushes := fun (i : Instr) (p : Word) => s.Issues c i →
      (p.toNat % 4 ≠ 0 → Raises i s c { num := 7, sub := 1, acc := 4, eaddr := p - 4 }) ∧
      (p.toNat % 4 = 0 → (s.found c).whereOf c (p - 4).toNat 4 true = .refused sub kind eng →
        Raises i s c { num := 7, sub := 2, acc := 4, eaddr := p - 4 })
    let pops := fun (i : Instr) (p : Word) => s.Issues c i →
      (p.toNat % 4 ≠ 0 → Raises i s c { num := 7, sub := 1, acc := 5, eaddr := p }) ∧
      (p.toNat % 4 = 0 → (s.found c).whereOf c p.toNat 4 false = .refused sub kind eng →
        Raises i s c { num := 7, sub := 2, acc := 5, eaddr := p }) ∧
      spoilt i p 4 5
    load (.lb c rd rs imm) based 1 ∧ load (.lbu c rd rs imm) based 1 ∧ load (.lh c rd rs imm) based 2 ∧
    load (.lhu c rd rs imm) based 2 ∧ load (.lw c rd rs imm) based 4 ∧ load (.ld c rd rs imm) based 8 ∧
    load (.lbua c rd imm) short 1 ∧ load (.lhua c rd imm) short 2 ∧ load (.lwa c rd imm) short 4 ∧
    load (.lwsp c rd imm) onSp 4 ∧
    store (.sb c rd rs imm) based 1 ∧ store (.sh c rd rs imm) based 2 ∧ store (.sw c rd rs imm) based 4 ∧
    store (.sd c rd rs imm) based 8 ∧
    store (.sba c rd imm) short 1 ∧ store (.sha c rd imm) short 2 ∧ store (.swa c rd imm) short 4 ∧
    store (.swsp c rd imm) onSp 4 ∧
    (s.Issues c (.ll c rd rs imm) → based.toNat % 4 ≠ 0 →
      Raises (.ll c rd rs imm) s c { num := 3, acc := 2, eaddr := based }) ∧
    (s.Issues c (.sc c rd rs imm) → based.toNat % 4 ≠ 0 →
      Raises (.sc c rd rs imm) s c { num := 3, acc := 3, eaddr := based }) ∧
    pushes (.push c rd) x.sp ∧ pushes (.call c o26) rp ∧ (bitsOf (x.gr rd) 0 2 = 0 → pushes (.callr c rd) rp) ∧
    pops (.pop c rd) x.sp ∧ pops (.ret c) rp

/-- R7, R9, R10, R22: where the accesses of an engine and of the privileged control core go. -/
def Obligations.AddressMaps : Prop :=
  ∀ (s : State) (e : EngineNo) (a n : Nat) (wr : Bool),
    let p := s.physOf e.val
    (a < 0x1000 → s.whereOf (.se e) a n wr = .mem (0x20080000 + 0x100000 * (p / 64) + 0x1000 * (p % 64) + a)) ∧
    (0x10000 ≤ a → a < 0x20000 →
      s.whereOf (.se e) a n wr = .mem (0x20000000 + 0x100000 * (p / 64) + 0x10000 * (p / 8 % 8) + (a - 0x10000))) ∧
    (0x20040 ≤ a → a < 0x10000000 → s.whereOf (.se e) a n wr = .refused 1 0 0) ∧
    (s.cc.priv = true →
      (a < 0x10000 → s.whereOf .cc a n false = .mem a ∧ s.whereOf .cc a n true = .refused 1 0 0) ∧
      (0x100000 ≤ a → a < 0x160000 → s.whereOf .cc a n wr = .mem a) ∧
      (0x20000000 ≤ a → a < 0x21000000 → a % 0x100000 < 0x80000 → s.whereOf .cc a n wr = .mem a) ∧
      (0x21000000 ≤ a → a < 0x30000000 → s.whereOf .cc a n wr = .refused 1 0 0) ∧
      (∀ h : Nat, h < 4 → s.whereOf .cc (0x40100000 + 0x10000 * h) 4 wr = .reg (0x40100000 + 0x10000 * h))) ∧
    (s.cc.priv = false → 0x20000000 ≤ a → a < 0x80000000 → s.whereOf .cc a n wr = .refused 3 0 0)

/-- R101: LL loads its word and reserves it; SC stores and answers 1 while the reservation stands, answers 0 and stores nothing
where it does not, and ends it either way; outside ridge memory, Store and control-core data memory both raise exception 6.
The model's readings in it: log entry 79. -/
def Obligations.Locks : Prop :=
  ∀ (s : State) (c : Ctx) (rd rs : RegNo) (imm : BitVec 16) (k : Nat) (bs : List Byte) (e : Ecc),
    let x := s.core c
    let a := x.gr rs + imm.signExtend 32
    (s.Issues c (.ll c rd rs imm) → a.toNat % 4 = 0 → (s.found c).lockKey c a.toNat = .inr k →
      (s.found c).whereOf c a.toNat 4 false = .mem k → (s.found c).eccBytes k 4 = (bs, e) → e ≠ .uncorr →
      Runs (.ll c rd rs imm) s fun t =>
        LoadFrame s t c e ∧ (t.core c).resv = some k ∧ x.Writes (t.core c) rd (BitVec.ofNat 32 (leNat bs)) ∧
        { s.atIssue c with resv := some k }.KeepsBut (t.core c)) ∧
    (s.Issues c (.sc c rd rs imm) → a.toNat % 4 = 0 → (s.found c).lockKey c a.toNat = .inr k →
      (s.found c).whereOf c a.toNat 4 true = .mem k → x.resv = some k →
      Runs (.sc c rd rs imm) s fun t =>
        StoreFrame s t c k (leBytes 4 (x.gr rd).toNat) ∧ (t.core c).resv = none ∧ x.Writes (t.core c) rd 1) ∧
    (s.Issues c (.sc c rd rs imm) → a.toNat % 4 = 0 → (s.found c).lockKey c a.toNat = .inr k → x.resv ≠ some k →
      Runs (.sc c rd rs imm) s fun t =>
        OnlyCtx c s t ∧ (t.core c).resv = none ∧ x.Writes (t.core c) rd 0 ∧
        { s.atIssue c with resv := none }.KeepsBut (t.core c)) ∧
    (∀ sub, s.Issues c (.ll c rd rs imm) → a.toNat % 4 = 0 → (s.found c).lockKey c a.toNat = .inl sub →
      Raises (.ll c rd rs imm) s c { num := 6, sub := sub, acc := 2, eaddr := a }) ∧
    (∀ sub, s.Issues c (.sc c rd rs imm) → a.toNat % 4 = 0 → (s.found c).lockKey c a.toNat = .inl sub →
      Raises (.sc c rd rs imm) s c { num := 6, sub := sub, acc := 3, eaddr := a }) ∧
    (∀ (v : EngineNo) (b : Nat),
      (0x10000 ≤ b → b < 0x20000 → s.lockKey (.se v) b = .inr (ridgeKey (s.physOf v.val) + (b - 0x10000))) ∧
      (0x10000000 ≤ b → b < 0x10800000 → s.lockKey (.se v) b = .inr b) ∧
      (¬ (0x10000 ≤ b ∧ b < 0x20000) → ¬ (0x10000000 ≤ b ∧ b < 0x10800000) → s.lockKey (.se v) b = .inl 1)) ∧
    (∀ b : Nat,
      let may := (0x140000 ≤ b ∧ b < 0x160000) ∨ (0x10000000 ≤ b ∧ b < 0x10800000) ∨
        (0x20000000 ≤ b ∧ b < 0x21000000 ∧ b % 0x100000 < 0x80000)
      let closed := s.cc.priv = false ∧ 0x20000000 ≤ b ∧ b < 0x80000000
      (closed → s.lockKey .cc b = .inl 3) ∧ (¬ closed → may → s.lockKey .cc b = .inr b) ∧
      (¬ closed → ¬ may → s.lockKey .cc b = .inl 1)) ∧
    (∀ key j b, x.resv = some key → key / 4 * 4 ≤ j → j < key / 4 * 4 + 4 → ((s.putBytes j [b]).core c).resv = none)

/-- R100, R103: PUSH and POP on the SP stack; CALL, CALLR and RET on the return stack that STACKMODE chooses: full-descending,
the word at the pointer − 4 or at the pointer, the pointer moved by 4. The model's readings in it: log entry 79. -/
def Obligations.Stacks : Prop :=
  ∀ (s : State) (c : Ctx) (r : RegNo) (o26 : BitVec 26) (k : Nat) (bs : List Byte) (e : Ecc),
    let x := s.core c
    let rp := if x.split then x.rsp else x.sp
    let slot := fun (p : Word) => p.toNat % 4 = 0 ∧ (s.found c).whereOf c (p - 4).toNat 4 true = .mem k
    let top := fun (p : Word) => p.toNat % 4 = 0 ∧ (s.found c).whereOf c p.toNat 4 false = .mem k ∧
      (s.found c).eccBytes k 4 = (bs, e) ∧ e ≠ .uncorr
    let w := BitVec.ofNat 32 (leNat bs)
    let ret := leBytes 4 (x.pc + 4).toNat
    let moved := fun (y : CoreSt) (p : Word) => if x.split then y.rsp = p ∧ y.sp = x.sp else y.sp = p ∧ y.rsp = x.rsp
    (s.Issues c (.push c r) → slot x.sp → Runs (.push c r) s fun t =>
      StoreFrame s t c k (leBytes 4 (x.gr r).toNat) ∧ (t.core c).sp = x.sp - 4 ∧ (∀ n, (t.core c).gr n = x.gr n) ∧
      (s.atIssue c).GoesOn (t.core c)) ∧
    (s.Issues c (.pop c r) → top x.sp → Runs (.pop c r) s fun t =>
      LoadFrame s t c e ∧ (t.core c).sp = x.sp + 4 ∧ x.Writes (t.core c) r w ∧ (s.atIssue c).GoesOn (t.core c)) ∧
    (s.Issues c (.call c o26) → slot rp → Runs (.call c o26) s fun t =>
      StoreFrame s t c k ret ∧ moved (t.core c) (rp - 4) ∧ (∀ n, (t.core c).gr n = x.gr n) ∧
      (t.core c).pc = x.pc + BitVec.ofInt 32 (4 * o26.toInt)) ∧
    (s.Issues c (.callr c r) → slot rp → bitsOf (x.gr r) 0 2 = 0 → Runs (.callr c r) s fun t =>
      StoreFrame s t c k ret ∧ moved (t.core c) (rp - 4) ∧ (∀ n, (t.core c).gr n = x.gr n) ∧ (t.core c).pc = x.gr r) ∧
    (s.Issues c (.ret c) → top rp → bitsOf w 0 2 = 0 → Runs (.ret c) s fun t =>
      LoadFrame s t c e ∧ moved (t.core c) (rp + 4) ∧ (∀ n, (t.core c).gr n = x.gr n) ∧ (t.core c).pc = w)

/-- R107 to R110: the pixel instructions per byte, per signed half and by alpha; RSQE and RSQS; STATUS unchanged; PAL.k loads the
palette word that byte k of rs selects, TFETCH eight words into eight registers, and a misaligned effective address raises
exception 3. -/
def Obligations.PixelInstructions : Prop :=
  ∀ (s : State) (c : Ctx) (sel : BitVec 2) (rd rs rt : RegNo) (k : Nat) (bs : List Byte) (e : Ecc),
    let a := (s.core c).gr rs
    let d := (s.core c).gr rt
    let by8 := fun (w : Word) (k : Nat) => w.toNat / 256 ^ k % 256
    let half := fun (w : Word) (h : Nat) => Int.bmod (w.toNat / 65536 ^ h) 65536
    let bytes := fun (f : Nat → Nat) => BitVec.ofNat 32 (f 0 + 256 * f 1 + 65536 * f 2 + 16777216 * f 3)
    let halves := fun (f : Nat → Int) => BitVec.ofInt 32 (f 1 * 65536 + f 0 % 65536)
    let s16 := fun (v : Int) => max (-32768) (min 32767 v)
    let u8 := fun (v : Int) => (max 0 (min 255 v)).toNat
    let r := fun (i : Instr) (v : Word) => PlainResult s c i rd false v
    r (.paddub c rd rs rt) (bytes fun k => min 255 (by8 a k + by8 d k)) ∧
    r (.psubub c rd rs rt) (bytes fun k => by8 a k - by8 d k) ∧
    r (.paddh c rd rs rt) (halves fun h => s16 (half a h + half d h)) ∧
    r (.psubh c rd rs rt) (halves fun h => s16 (half a h - half d h)) ∧
    r (.pmulh c rd rs rt) (halves fun h => s16 ((half a h * half d h + 0x4000) / 32768)) ∧
    r (.packub c rd rs rt) (bytes fun k => u8 (half (if 2 ≤ k then a else d) (k % 2))) ∧
    r (.mula c rd rs rt) (bytes fun k => d255 (by8 a k * by8 d 0)) ∧
    r (.cov c rd rs rt) (bytes fun k => if k = 3 then d255 (by8 a 3 * by8 d 0) else by8 a k) ∧
    r (.blend c rd rs rt) (bytes fun k =>
      if k = 3 then by8 a 3 + d255 (by8 d 3 * (255 - by8 a 3)) else d255 (by8 a k * by8 a 3 + by8 d k * (255 - by8 a 3))) ∧
    r (.blendp c rd rs rt) (bytes fun k => min 255 (by8 a k + d255 (by8 d k * (255 - by8 a 3)))) ∧
    (a = 0 → r (.rsqe c rd rs) 0xFFFFFFFF) ∧
    (∀ p m T : Nat, a ≠ 0 → p % 2 = 0 → 2 ^ p ≤ a.toNat → a.toNat < 2 ^ (p + 2) →
      m = (if 6 ≤ p then a.toNat / 2 ^ (p - 6) else a.toNat * 2 ^ (6 - p)) →
      (2 * T - 1) ^ 2 * m ≤ 65536 ^ 2 → 65536 ^ 2 < (2 * T + 1) ^ 2 * m →
      r (.rsqe c rd rs) (BitVec.ofNat 32 (min (T * 2 ^ (20 - p / 2)) 0xFFFFFFFF))) ∧
    (let u := a.toNat * (d.toNat * d.toNat / 2 ^ 24) / 65536
     r (.rsqs c rd rs rt) (if 3 * 2 ^ 24 ≤ u then 0
       else BitVec.ofNat 32 (min (d.toNat * (3 * 2 ^ 24 - u) / 2 ^ 25) 0xFFFFFFFF))) ∧
    (let x := s.core c
     let f := s.found c
     let pal := x.gr rt + BitVec.ofNat 32 (4 * (a.toNat / 256 ^ sel.toNat % 256))
     (s.Issues c (.palK c sel rd rs rt) → pal.toNat % 4 = 0 → f.whereOf c pal.toNat 4 false = .mem k →
       f.eccBytes k 4 = (bs, e) → e ≠ .uncorr → Runs (.palK c sel rd rs rt) s fun t =>
         LoadFrame s t c e ∧ x.Writes (t.core c) rd (BitVec.ofNat 32 (leNat bs)) ∧ (t.core c).status = x.status) ∧
     (s.Issues c (.palK c sel rd rs rt) → pal.toNat % 4 ≠ 0 →
       Raises (.palK c sel rd rs rt) s c { num := 3, acc := 2, eaddr := pal }) ∧
     (s.Issues c (.tfetch c rd rs) → a.toNat % 32 = 0 → f.whereOf c a.toNat 32 false = .mem k →
       f.eccBytes k 32 = (bs, e) → e ≠ .uncorr → Runs (.tfetch c rd rs) s fun t =>
         LoadFrame s t c e ∧ (t.core c).status = x.status ∧
         (∀ n, n < 8 → (t.core c).gr (rd + BitVec.ofNat 5 n) = BitVec.ofNat 32 (leNat ((bs.drop (4 * n)).take 4))) ∧
         (∀ q, (q.toNat < rd.toNat ∨ rd.toNat + 8 ≤ q.toNat) → (t.core c).gr q = x.gr q)) ∧
     (s.Issues c (.tfetch c rd rs) → a.toNat % 32 ≠ 0 →
       Raises (.tfetch c rd rs) s c { num := 3, acc := 2, eaddr := a }))

/-- R14, R37, R111: STL and STL8 of an engine: with a task whose slot is free the pixels inside its range stand in its ring slot
and the others set CLIP; with no task everything is clipped; rt advances either way; a slot that is not free stalls, and the
store completes once the slot is free. The model's readings in it: log entries 80 and 112. -/
def Obligations.StoreToLine : Prop :=
  ∀ (s : State) (e : EngineNo) (rs rt : RegNo),
    let c := Ctx.se e
    let x := s.core c
    let col := (x.gr rt).toNat % 65536
    let line := fun (i : Instr) (n : Nat) => s.Issues c i →
      (∀ tk : Task, (s.found c).linePut e.val = .go tk → Runs i s fun t =>
        (∀ j, (∀ m, m < n → tk.x0 ≤ col + m → col + m < tk.x1 →
            ¬ (ringKey tk.headNo tk.ring tk.slot (col + m) ≤ j ∧ j < ringKey tk.headNo tk.ring tk.slot (col + m) + 4)) →
          t.rawByte j = s.rawByte j) ∧
        (∀ m r, m < n → r < 4 → tk.x0 ≤ col + m → col + m < tk.x1 →
          t.rawByte (ringKey tk.headNo tk.ring tk.slot (col + m) + r) =
            (leBytes 4 (x.gr (rs + BitVec.ofNat 5 m)).toNat).getD r 0) ∧
        x.Writes (t.core c) rt (x.gr rt + BitVec.ofNat 32 n) ∧
        ((∃ m, m < n ∧ ¬ (tk.x0 ≤ col + m ∧ col + m < tk.x1)) → t.flag F.ARRAY_STATUS_CLIP = true)) ∧
      ((s.found c).linePut e.val = .clip → Runs i s fun t =>
        SameMem s t ∧ t.flag F.ARRAY_STATUS_CLIP = true ∧ x.Writes (t.core c) rt (x.gr rt + BitVec.ofNat 32 n)) ∧
      ((s.found c).linePut e.val = .drop → Runs i s fun t =>
        SameMem s t ∧ SameRegs (fun _ => False) s t ∧ x.Writes (t.core c) rt (x.gr rt + BitVec.ofNat 32 n)) ∧
      ((s.found c).linePut e.val = .stall → Runs i s fun t =>
        OnlyCtx c s t ∧ t.core c = { s.atIssue c with stalled := some i })
    let u := s.modCore c fun y => { y with stalled := none, haltReq := none, skipCmp := some y.pc }
    line (.stl c rs rt) 1 ∧ line (.stl8 c rs rt) 8 ∧
    (s.linePut e.val = .stall → Runs (.storeToLineStallEnd e) s fun t => t = s) ∧
    (x.stalled = some (.stl c rs rt) → x.halted = false → x.parked = false → x.parkReq = false → s.clocked c = true →
      u.Issues c (.stl c rs rt) →
      s.linePut e.val ≠ .stall → (u.found c).linePut e.val = s.linePut e.val →
      Runs (.storeToLineStallEnd e) s fun t =>
        (t.core c).stalled = none ∧ x.Writes (t.core c) rt (x.gr rt + 1) ∧ (t.core c).status = x.status)

/-- R27, R40, R112 to R114: WAIT sleeps when there is nothing to do and else takes one cycle; SYSCALL, SYSRET and ERET with the
registers they save and restore; COMPLETE completes the oldest task of the engine's own face. The model's readings in it:
log entries 17 and 41. -/
def Obligations.SystemInstructions : Prop :=
  ∀ (s : State) (c : Ctx) (e : EngineNo) (r : RegNo),
    let x := s.core c
    let f := s.atIssue c
    (s.Issues c (.wait c) → (isCc c = true → x.priv = true) → Runs (.wait c) s fun t =>
      OnlyCtx c s t ∧ (∀ n, (t.core c).gr n = x.gr n) ∧ f.GoesOn (t.core c) ∧
      (t.core c).asleep = !((s.found c).retire c (s.issueTime c) 1).hasWork c ∧
      (t.core c).resv = if ((s.found c).retire c (s.issueTime c) 1).hasWork c then x.resv else none) ∧
    (s.Issues .cc (.syscall .cc) → Runs (.syscall .cc) s fun t =>
      OnlyCtx .cc s t ∧ t.cc.spc = s.cc.pc + 4 ∧ t.cc.sstat = s.cc.status ∧ t.cc.sp = s.cc.ssp ∧ t.cc.ssp = s.cc.sp ∧
      t.cc.pc = s.cc.sysent ∧ t.cc.resv = none ∧ (∀ n, t.cc.gr n = s.cc.gr n) ∧
      ∀ j, bitOf t.cc.status j = (decide (j = stPRIV) || (decide (j ≠ stLPE) && bitOf s.cc.status j))) ∧
    (s.Issues .cc (.sysret .cc) → s.cc.priv = true → Runs (.sysret .cc) s fun t =>
      OnlyCtx .cc s t ∧ t.cc.pc = s.cc.spc ∧ t.cc.status = s.cc.sstat ∧ t.cc.sp = s.cc.ssp ∧ t.cc.ssp = s.cc.sp ∧
      t.cc.resv = none ∧ ∀ n, t.cc.gr n = s.cc.gr n) ∧
    (s.Issues c (.eret c) → (isCc c = true → x.priv = true) → Runs (.eret c) s fun t =>
      OnlyCtx c s t ∧ (t.core c).pc = x.epc ∧ (∀ n, (t.core c).gr n = x.gr n) ∧
      (isCc c = true → (t.core c).status = x.estat) ∧
      (isCc c = false → ∀ j, bitOf (t.core c).status j =
        (decide (j = stPRIV) || (decide (j ≠ stIE) && bitOf x.estat j))) ∧
      (if isCc c = true ∧ bitOf x.estat stPRIV = false then (t.core c).sp = x.ssp ∧ (t.core c).ssp = x.sp
        else (t.core c).sp = x.sp ∧ (t.core c).ssp = x.ssp)) ∧
    (s.Issues (.se e) (.complete (.se e) r) → Runs (.complete (.se e) r) s fun t =>
      t = ((s.found (.se e)).completeOwn e.val ((s.core (.se e)).gr r)).retire (.se e) (s.issueTime (.se e)) 2) ∧
    (∀ i, i = .wait .cc ∨ i = .sysret .cc ∨ i = .eret .cc → s.Issues .cc i → s.cc.priv = false →
      Raises i s .cc { num := 2 }) ∧
    (s.Issues c (.brk c) → Raises (.brk c) s c { num := 10 })

/-- R80, R81, R105, R113, R118, R128: MFS reads every special register, MTS writes its writable bits and no other special register;
with loop-end checks active an MTS is followed by one that already sees what it wrote; at user level the privileged ones raise
exception 2, and a write of STATUS changes only the flags and three enables. The model's readings in it: log entries 2 and 38. -/
def Obligations.SpecialRegisters : Prop :=
  ∀ (s : State) (c : Ctx) (rd rs sr : RegNo),
    let x := s.core c
    let f := s.atIssue c
    let v := x.gr rs
    (s.Issues c (.mfs c rd sr) → (isCc c = true → srPriv sr.toNat = true → x.priv = true) → Runs (.mfs c rd sr) s fun t =>
      OnlyCtx c s t ∧ f.KeepsBut (t.core c) ∧ (t.core c).status = x.status ∧ f.GoesOn (t.core c) ∧
      x.Writes (t.core c) rd (if sr = 0 then x.pc else if sr = 24 then s.cycleAt (s.issueTime c)
        else f.specials.getD (sr.toNat - 1) 0)) ∧
    (s.Issues c (.mts c sr rs) → isCc c = true → x.priv = true → bitOf x.status stLPE = false →
      Runs (.mts c sr rs) s fun t =>
        OnlyCtx c s t ∧ (∀ n, (t.core c).gr n = x.gr n) ∧ (t.core c).pc = x.pc + 4 ∧
        (t.core c).specials = f.specials.set (sr.toNat - 1) (v &&& specialMask sr.toNat)) ∧
    (s.Issues c (.mts c sr rs) → isCc c = false → bitOf x.status stLPE = false → Runs (.mts c sr rs) s fun t =>
        OnlyCtx c s t ∧ (∀ n, (t.core c).gr n = x.gr n) ∧ (t.core c).pc = x.pc + 4 ∧
        (t.core c).specials = f.specials.set (sr.toNat - 1)
          (if sr = 1 then (v &&& 0xF0000F04) ||| 2 else v &&& specialMask sr.toNat)) ∧
    (s.Issues c (.mts c sr rs) → (isCc c = true → x.priv = true) → bitOf x.status stLPE = true →
      Runs (.mts c sr rs) s fun t =>
        OnlyCtx c s t ∧ (∀ n, (t.core c).gr n = x.gr n) ∧ ∃ z : CoreSt, z.pc = x.pc + 4 ∧
          z.specials = f.specials.set (sr.toNat - 1)
            (if isCc c = false ∧ sr = 1 then (v &&& 0xF0000F04) ||| 2 else v &&& specialMask sr.toNat) ∧
          (t.core c).pc = (z.loopEnd x.pc).pc ∧ (t.core c).specials = (z.loopEnd x.pc).specials) ∧
    (s.Issues c (.mts c 1 rs) → isCc c = true → x.priv = false → Runs (.mts c 1 rs) s fun t =>
        OnlyCtx c s t ∧ ∀ j, bitOf (t.core c).status j = if 28 ≤ j ∨ (8 ≤ j ∧ j ≤ 10) then bitOf v j else bitOf x.status j) ∧
    (s.Issues .cc (.mfs .cc rd sr) → s.cc.priv = false → 13 ≤ sr.toNat → sr.toNat ≤ 22 →
      Raises (.mfs .cc rd sr) s .cc { num := 2 }) ∧
    (s.Issues .cc (.mts .cc sr rs) → s.cc.priv = false → 13 ≤ sr.toNat → sr.toNat ≤ 23 →
      Raises (.mts .cc sr rs) s .cc { num := 2 })

/-- R122, R124, R129, R130, R132, R133: a first exception saves the PC and STATUS, records its cause, raises the level, ends the
reservation, changes to the privileged stack from user level and goes on at the word that the vector table holds for it; one with
EXL = 1 is a double fault: DFPC and ECAUSE record it and EPC is kept; it parks an engine, and the control core takes vector 11, or
locks up when that is the second in a row. Where the vector names boot ROM's default handler, its record of four words stands at
the top of data memory and the core executes no more. The model's readings in it: log entries 37 and 49. -/
def Obligations.ExceptionEntry : Prop :=
  ∀ (s : State) (c : Ctx) (e : EngineNo) (t cyc : Nat) (k : Cause) (w : Word),
    let x := s.core c
    let u := s.raise c t cyc k
    let y := u.core c
    let va := fun (n : Nat) => x.vbase + BitVec.ofNat 32 (4 * n)
    let reads := fun (n : Nat) => (∃ key bs, s.vectorKey c (va n).toNat = some key ∧
      s.eccBytes key 4 = (bs, .clean) ∧ w = BitVec.ofNat 32 (leNat bs)) ∧ bitsOf w 0 2 = 0
    let vector := fun (n : Nat) => reads n ∧ (isCc c = true → romHandler (va n) w = false)
    (x.exl = false → (isCc c = false → x.faultPark = false) → vector k.num →
      y.pc = w ∧ y.epc = x.pc &&& 0xFFFFFFFC ∧ y.estat = x.status ∧ y.eaddr = k.eaddr ∧
      y.ecause = BitVec.ofNat 32 (k.sub * 65536 + k.acc * 256 + k.num) ∧ y.resv = none ∧
      (∀ j, bitOf y.status j = (decide (j = stEXL ∨ j = stPRIV) || (decide (j ≠ stIE ∧ j ≠ stLPE) && bitOf x.status j))) ∧
      (if isCc c = true ∧ x.priv = false then y.sp = x.ssp ∧ y.ssp = x.sp else y.sp = x.sp ∧ y.ssp = x.ssp) ∧
      y.rsp = x.rsp ∧ (∀ n, y.gr n = x.gr n) ∧ y.mlo = x.mlo ∧ y.mhi = x.mhi ∧
      SameMem s u ∧ SameCtxs c s u ∧ SameRegs (fun _ => False) s u) ∧
    (c = .cc → x.exl = false → reads k.num → romHandler (va k.num) w = true →
      y.inRom = true ∧ y.epc = x.pc &&& 0xFFFFFFFC ∧ y.eaddr = k.eaddr ∧ y.dfpc = x.dfpc ∧
      y.ecause = BitVec.ofNat 32 (k.sub * 65536 + k.acc * 256 + k.num) ∧ (∀ n, y.gr n = x.gr n) ∧
      u.rawWord 0x15FFF0 = y.epc ∧ u.rawWord 0x15FFF4 = y.ecause ∧ u.rawWord 0x15FFF8 = y.eaddr ∧ u.rawWord 0x15FFFC = y.dfpc ∧
      (∀ j, (j < 0x15FFF0 ∨ 0x160000 ≤ j) → u.rawByte j = s.rawByte j) ∧ SameRegs (fun _ => False) s u) ∧
    (x.exl = true → (c = .cc → bitsOf x.ecause 0 8 ≠ 11 → vector 11) →
      (y.dfpc = x.pc &&& 0xFFFFFFFC ∧ y.eaddr = k.eaddr ∧ y.ecause = BitVec.ofNat 32 (k.num * 65536 + k.acc * 256 + 11) ∧
        y.epc = x.epc ∧ y.estat = x.estat) ∧
      (c = .se e → y.parked = true ∧ y.faulted = true) ∧
      (c = .cc → bitsOf x.ecause 0 8 = 11 → y.lockup = true) ∧
      (c = .cc → bitsOf x.ecause 0 8 ≠ 11 → vector 11 → y.pc = w ∧ y.lockup = x.lockup))

/-- R47, R83, R85, R126: the exceptions that belong to a fetch: a word that is no instruction, an uncorrectable fetch, which
is counted, and a PC outside the instruction space: for an engine at or above 0x2000, for the control core outside boot ROM
and its instruction memory. -/
def Obligations.FetchExceptions : Prop :=
  ∀ (s : State) (c : Ctx) (w : Word),
    let x := s.core c
    let f := s.found c
    let key := s.fetchKey c x.pc
    (s.runnable c = true → fetchable c x.pc = true → s.flag F.DBG_CTRL_ATTACH = false → decodeInsn c w = none →
      Raises (.illegalInstruction c w) s c { num := 1 }) ∧
    (s.runnable c = true → fetchable c x.pc = true → s.flag F.DBG_CTRL_ATTACH = false →
      RaisesOn (f.noteEcc (readerOf c) key x.pc.toNat .uncorr) (.uncorrectableFetch c) s c
        { num := 4, acc := 1, eaddr := x.pc }) ∧
    (s.runnable c = true → fetchable c x.pc = false →
      Raises (.fetchOutsideInstructionSpace c) s c { num := 6, sub := 4, acc := 1, eaddr := x.pc }) ∧
    (∀ e, c = .se e → (fetchable c x.pc = false ↔ 0x2000 ≤ x.pc.toNat)) ∧
    (c = .cc → (fetchable c x.pc = false ↔ ¬ (x.pc.toNat < 0x10000 ∨ 0x100000 ≤ x.pc.toNat ∧ x.pc.toNat < 0x140000)))

/-! ### Registers, interrupts, timers -/

namespace Sys2Proof.Machine

/-- Registers whose writes do nothing but change their own bits: address, RW bits, W1C bits. -/
def plainRegs : List (Nat × Nat × Nat) :=
  [(R.ADC_SEQ, 0xFFFFFFFF, 0), (R.ADC_STATUS, 0, 0xF), (R.ADC_IE, 0xF, 0), (R.STORE_IE, 0x1FF, 0), (R.STORE_STATUS, 0, 0x1FF),
   (R.PRG_STATUS, 0, 0x1F), (R.SYS_EVT_IE, 0x30F, 0), (R.SYS_EVT_STATUS, 0, 0x30F), (R.PCIE_IE, 0xF, 0)]
  ++ ([0, 1, 2, 3].map fun h => (R.HEAD_EVT_IE h, 0x3FFF, 0)) ++ ([0, 1, 2, 3].map fun h => (R.HEAD_EVT_STATUS h, 0, 0x3FFF))

/-- Counters that a read clears: address and RC bits. -/
def readClearRegs : List (Nat × Nat) :=
  ([0, 1, 2, 3].map fun h => (R.HEAD_LERR_CNT h, 0xFFFFFFFF)) ++ ([0, 1, 2, 3].map fun h => (R.HEAD_UNDERRUN_CNT h, 0xFFFF))
  ++ ([0, 1, 2, 3, 4, 5, 6, 7].map fun c => (R.STORE_ECC_CNT c, 0xFFFFFFFF))
  ++ ([0, 1].map fun n => (R.CAM_ERRCNT n, 0xFFFFFFFF)) ++ ([0, 1].map fun n => (R.ETH_CNT_DROP n, 0xFFFFFFFF))

/-- Nothing has changed but registers that `p` names and what the last access returned. -/
def OnlyRegsResp (p : Nat → Prop) (s t : State) : Prop :=
  t = { s with regs := t.regs, resp := t.resp } ∧ SameRegs p s t

/-- The same after a write to the ICU block, which finds the filtered requests as the lines now leave them (R297). -/
def OnlyIcu (p : Nat → Prop) (s t : State) : Prop :=
  t = { s with regs := t.regs, resp := t.resp, icuFilt := t.icuFilt } ∧ SameRegs p s t

end Sys2Proof.Machine

/-- R5, R6: a write sets RW bits, clears W1C bits that are written as one and leaves all others; a read of an RC counter returns
it and leaves only what came in the clock of the read, and a debug read that peeks leaves the count with that added; other
addresses are refused. The model's readings in it: log entries 14 and 77. -/
def Obligations.RegisterAccess : Prop :=
  ∀ (s : State) (m : Master) (v coinc : Word), s.pclkOn = true →
    (∀ a rw w1c, (a, rw, w1c) ∈ plainRegs → Runs (.registerWrite m (BitVec.ofNat 32 a) v) s fun t =>
      OnlyRegsResp (fun b => b = a) s t ∧ ∀ i, i < 32 → bitOf (t.rd a) i =
        if rw.testBit i then bitOf v i else bitOf (s.rd a) i && !(w1c.testBit i && bitOf v i)) ∧
    (∀ a rc, (a, rc) ∈ readClearRegs → m ≠ .debug → Runs (.rcRead m (BitVec.ofNat 32 a) coinc) s fun t =>
      OnlyRegsResp (fun b => b = a) s t ∧ t.resp = .data (s.rd a) ∧
      ∀ i, i < 32 → bitOf (t.rd a) i = if rc.testBit i then bitOf coinc i else bitOf (s.rd a) i) ∧
    (∀ a rc, (a, rc) ∈ readClearRegs → s.flag F.DBG_CTRL_SIDEFX = false →
      Runs (.rcRead .debug (BitVec.ofNat 32 a) coinc) s fun t =>
      OnlyRegsResp (fun b => b = a) s t ∧ t.resp = .data (s.rd a) ∧
      bitsOf (t.rd a) 0 16 = min 65535 (bitsOf (s.rd a) 0 16 + bitsOf coinc 0 16)) ∧
    (∀ a : Word, inBlock a.toNat = false → Runs (.registerWrite m a v) s fun t => t = { s with resp := .refused })

/-- R297 to R301: the candidate is the pending, enabled source of highest priority and among equals the lowest; a filtered request
that rises, or ICU_SET, makes a source pending, and one that stays high, or that its filter does not let through, does not;
ICU_PEND clears; a write of FILT starts the filter's count again; acceptance moves the candidate from pending to active and to the
top of the stack and enters with number 32 + n; EOI pops, and a source whose filtered request is high is pending again. The
model's readings in it: log entries 16 and 63. -/
def Obligations.Interrupts : Prop :=
  ∀ (s : State) (m : Master) (n : IrqNo) (k : BitVec 2) (v w : Word),
    (∀ b, s.candidate = some b → b < 86 ∧ s.pendBit b = true ∧ s.enBit b = true ∧
      ∀ j, j < 86 → s.pendBit j = true → s.enBit j = true → s.prioOf j < s.prioOf b ∨ (s.prioOf j = s.prioOf b ∧ b ≤ j)) ∧
    (n.val < 86 → s.irqLevel n = true → s.filtPass n = true → s.filtered n = false → Runs (.interruptRequest n) s fun t =>
      t.pendBit n = true ∧ t.filtered n = true ∧ t.icuStack = s.icuStack) ∧
    (s.irqLevel n = true → (s.filtPass n = false ∨ s.filtered n = true) → Runs (.interruptRequest n) s fun t => t = s) ∧
    (s.filtPass n = true ↔ s.get (F.ICU_SRC_FILT n) = 0 ∨
      ((s.filtSt n).level = s.irqLevel n ∧ s.get (F.ICU_SRC_FILT n) ≤ (s.filtSt n).held)) ∧
    (s.irqLevel n = false → Runs (.interruptRequest n) s fun t => ∀ j, j < 128 → t.pendBit j = s.pendBit j) ∧
    (s.pclkOn = true → Runs (.icuSet m k v) s fun t => SameMem s t ∧ SameRegs (fun a => a = R.ICU_PEND k.toNat) s t ∧
      ∀ i, i < 32 → bitOf (t.rd (R.ICU_PEND k.toNat)) i =
        (bitOf (s.rd (R.ICU_PEND k.toNat)) i || (bitOf v i && decide (32 * k.toNat + i < 86)))) ∧
    (s.pclkOn = true → Runs (.icuPendClear m k v 0) s fun t =>
      OnlyIcu (fun a => a = R.ICU_PEND k.toNat) s t ∧
      t.rd (R.ICU_PEND k.toNat) = s.rd (R.ICU_PEND k.toNat) &&& ~~~v) ∧
    (s.pclkOn = true → Runs (.filtWrite m n v) s fun t => OnlyIcu (fun a => a = R.ICU_SRC n) s t ∧
      (n.val < 86 → (t.filtSt n).held = 0) ∧ t.get (F.ICU_SRC_FILT n) = bitsOf v 8 4 ∧ t.get (F.ICU_SRC_PRIO n) = bitsOf v 0 4) ∧
    (s.pclkOn = true → bitOf v 0 = true → (∀ b p rest, s.icuStack = (b, p) :: rest → b < 128 →
        Runs (.icuEoi m v) s fun t => t.icuStack = rest ∧ SameMem s t ∧ bitOf (t.rd (R.ICU_ACT (b / 32))) (b % 32) = false ∧
          (s.linesSettle.filtered b = false → SameRegs (fun a => a = R.ICU_ACT (b / 32)) s t) ∧
          (s.linesSettle.filtered b = true → b < 86 → t.pendBit b = true)) ∧
      (s.icuStack = [] → Runs (.icuEoi m v) s fun t => t.icuStack = [] ∧ t.flag F.ICU_STATUS_EOIERR = true ∧
        OnlyIcu (fun a => a = R.ICU_STATUS) s t)) ∧
    (∀ b, s.candidate = some b → s.runnable .cc = true → s.offered b = true → s.cc.ie = true → s.cc.exl = false →
      let va := s.cc.vbase + BitVec.ofNat 32 (4 * (32 + b))
      (∃ key bs, s.vectorKey .cc va.toNat = some key ∧ s.eccBytes key 4 = (bs, .clean) ∧ s.undef = [] ∧
        w = BitVec.ofNat 32 (leNat bs)) → bitsOf w 0 2 = 0 → romHandler va w = false →
      Runs .interruptAccept s fun t =>
        t.icuStack = (b, s.prioOf b) :: s.icuStack ∧ t.pendBit b = false ∧ bitOf (t.rd (R.ICU_ACT (b / 32))) (b % 32) = true ∧
        t.cc.epc = s.cc.pc &&& 0xFFFFFFFC ∧ t.cc.estat = s.cc.status ∧ t.cc.pc = w ∧ bitsOf t.cc.ecause 0 8 = 32 + b ∧
        t.cc.ie = false ∧ t.cc.exl = true ∧ SameMem s t)

/-- R305 to R308, R310: CNT counts to TOP and starts again from 0 with an overflow, after which a one-shot timer stands unless the
tick's own events start it again; a match where CNT changes to CMP; each compare output as OVFACT at an overflow and else as
MATCHACT at a match drives it; the tick's events start and stop the timers that name them, a stop before a start; captures and the
read that pairs them; a written count. The model's readings in it: log entry 60. -/
def Obligations.Timers : Prop :=
  ∀ (s : State) (m : Master) (t : TimerNo) (ch : BitVec 2) (v : Word) (rising : Bool),
    let n := t.val
    let c := ch.toNat
    let cnt := s.rd (R.TIM_CNT n)
    let top := s.rd (R.TIM_TOP n)
    let ovf := cnt = top ∨ cnt = 0xFFFFFFFF
    let next : Word := if ovf then 0 else cnt + 1
    let matched := fun (j : Nat) => s.get (F.TIM_CCFG_MODE n j) = 1 ∧ next = s.rd (R.TIM_CMP n j)
    let event := fun (ev : Nat) => (ovf ∧ ev = 32 + n) ∨ ∃ j, j < 4 ∧ matched j ∧ ev = 4 * n + j
    let ticks := fun (i : Instr) => Runs i s fun u =>
      u.rd (R.TIM_CNT n) = next ∧ SameMem s u ∧ SameCtxs .cc s u ∧ u.cc = s.cc ∧
      u.flag (F.TIM_STATUS_OVF n) = (s.flag (F.TIM_STATUS_OVF n) || decide ovf) ∧
      (∀ j, j < 4 → natBit (u.get (F.TIM_STATUS_CH n)) j = (natBit (s.get (F.TIM_STATUS_CH n)) j || decide (matched j))) ∧
      (∀ j, j < 4 → s.get (F.TIM_CCFG_MODE n j) = 1 → u.flag (F.TIM_CCFG_OUT n j) =
        (let old := s.flag (F.TIM_CCFG_OUT n j)
         if ovf ∧ s.get (F.TIM_CCFG_OVFACT n j) = 1 then true
         else if ovf ∧ s.get (F.TIM_CCFG_OVFACT n j) = 2 then false
         else if next = s.rd (R.TIM_CMP n j) then [old, true, false, !old].getD (s.get (F.TIM_CCFG_MATCHACT n j)) old
         else old)) ∧
      (∀ j, j < 4 → s.get (F.TIM_CCFG_MODE n j) ≠ 1 → u.rd (R.TIM_CCFG n j) = s.rd (R.TIM_CCFG n j)) ∧
      (∀ o, o < 8 →
        (event (s.get (F.TIM_CTRL_STOPEV o)) → u.flag (F.TIM_CTRL_EN o) = false) ∧
        (¬ event (s.get (F.TIM_CTRL_STOPEV o)) → event (s.get (F.TIM_CTRL_STARTEV o)) → u.flag (F.TIM_CTRL_EN o) = true) ∧
        (¬ event (s.get (F.TIM_CTRL_STOPEV o)) → ¬ event (s.get (F.TIM_CTRL_STARTEV o)) →
          u.flag (F.TIM_CTRL_EN o) =
            (s.flag (F.TIM_CTRL_EN o) && !(decide (o = n ∧ ovf) && s.flag (F.TIM_CTRL_ONESHOT n)))) ∧
        (o ≠ n → u.rd (R.TIM_CNT o) = s.rd (R.TIM_CNT o)))
    (s.timRuns n = true → ticks (.timerTick t)) ∧
    (s.timRuns n = true → ovf → ticks (.timerOverflow t)) ∧
    (s.timRuns n = true → matched c → ticks (.timerMatch t ch)) ∧
    (s.timRuns n = false → Runs (.timerTick t) s fun u => u = s) ∧
    (s.timRuns n = true ↔ s.flag (F.TIM_CTRL_EN n) = true ∧ s.pclkOn = true ∧
      ¬ (s.flag (F.TIM_CTRL_FRZ n) = true ∧ s.cc.halted = true)) ∧
    (s.pclkOn = true → Runs (.cntWrite m t v) s fun u =>
      OnlyRegsResp (fun a => a = R.TIM_CNT n) s u ∧ u.rd (R.TIM_CNT n) = v) ∧
    (let f := 64 + 4 * n + c
     let p := s.get (F.PIN_SEL_PIN f)
     s.fnSees f = true → (s.setExt p rising).padLevel p = rising → s.get (F.TIM_CCFG_MODE n c) = 2 → s.pclkOn = true →
     Runs (.timerCapture t ch rising) s fun u =>
       (rising = true → u.rd (R.TIM_CAPR n c) = cnt ∧ u.flag (capBit n c 0) = true) ∧
       (rising = false → tabGet (dflt 0) u.capf (4 * n + c) = cnt ∧ u.flag (capBit n c 1) = true ∧
         natBit (u.get (F.TIM_STATUS_CH n)) c = true) ∧ SameMem s u ∧
       SameRegs (fun a => a = R.TIM_CAPR n c ∨ a = R.TIM_CAPFLAG n ∨ a = R.TIM_STATUS n ∨ a = R.PIN_EVT_STATUS) s u) ∧
    (s.pclkOn = true → m ≠ .debug → Runs (.caprRead m t ch) s fun u =>
      u.resp = .data (s.rd (R.TIM_CAPR n c)) ∧ u.flag (capBit n c 0) = false ∧ u.flag (capBit n c 1) = false ∧
      u.rd (R.TIM_CAPF n c) = tabGet (dflt 0) s.capf (4 * n + c) ∧ u.capf = s.capf ∧
      OnlyRegsResp (fun a => a = R.TIM_CAPFLAG n ∨ a = R.TIM_CAPF n c) s u)

/-- R312 to R314: a service in the window is accepted and COUNT becomes 0 at the next LFCLK edge, any other resets; WARN where
COUNT changes to it, also to 0 by a service, and the timeout; EN is taken only with a legal configuration and then stays. The
model's readings in it: log entry 61. -/
def Obligations.Watchdog : Prop :=
  ∀ (s : State) (m : Master) (v : Word), s.pclkOn = true →
    let en := s.flag F.WDT_CTRL_EN
    let count := s.get F.WDT_COUNT_LF
    let s0 := { s with resp := .none }
    (en = false → Runs (.wdtService m v) s fun t => t = s0) ∧
    (en = true → bitsOf v 0 8 = 0xC3 → s.get F.WDT_WIN_LF ≤ count → Runs (.wdtService m v) s fun t =>
      t = { s0 with wdtSvc := true }) ∧
    (en = true → (bitsOf v 0 8 ≠ 0xC3 ∨ count < s.get F.WDT_WIN_LF) → Runs (.wdtService m v) s fun t =>
      t = s0.deviceReset F.SYS_RESET_CAUSE_WDT) ∧
    (s.wdtRuns = true → s.wdtSvc = false → count + 1 = s.get F.WDT_WARN_LF → count + 1 < s.get F.WDT_TIMEOUT_LF →
      count + 1 < 2 ^ F.WDT_COUNT_LF.width →
      Runs .wdtWarn s fun t => t.flag F.WDT_STATUS_WARN = true ∧ t.get F.WDT_COUNT_LF = count + 1 ∧
        OnlyRegs (fun a => a = R.WDT_STATUS ∨ a = R.WDT_COUNT) s t) ∧
    (s.wdtRuns = true → s.wdtSvc = true → s.get F.WDT_WARN_LF = 0 → count ≠ 0 → Runs .wdtWarn s fun t =>
      t.flag F.WDT_STATUS_WARN = true ∧ t.rd R.WDT_COUNT = 0 ∧ t.wdtSvc = false ∧ SameMem s t ∧
      SameRegs (fun a => a = R.WDT_STATUS ∨ a = R.WDT_COUNT) s t) ∧
    (s.wdtRuns = true → s.wdtSvc = false → s.get F.WDT_TIMEOUT_LF ≤ count + 1 → Runs .wdtTimeout s fun t =>
      t.flag F.SYS_RESET_CAUSE_WDT = true ∧ t.boot.phase = .inReset) ∧
    (en = false → s.get F.WDT_WIN_LF < s.get F.WDT_TIMEOUT_LF → s.get F.WDT_WARN_LF < s.get F.WDT_TIMEOUT_LF →
      1024 ≤ s.get F.WDT_TIMEOUT_LF → Runs (.wdtEnable m v) s fun t =>
        t.flag F.WDT_CTRL_EN = true ∧ t.rd R.WDT_COUNT = 0 ∧ SameMem s t ∧
        SameRegs (fun a => a = R.WDT_CTRL ∨ a = R.WDT_COUNT) s t) ∧
    (en = false → s.get F.WDT_TIMEOUT_LF < 1024 → Runs (.wdtEnable m v) s fun t =>
      t.flag F.WDT_CTRL_EN = false ∧ t.flag F.WDT_STATUS_REFUSED = true) ∧
    (en = true → Runs (.registerWrite m (BitVec.ofNat 32 R.WDT_CTRL) (v &&& 0x7FFFFFFF)) s fun t =>
      t.flag F.WDT_CTRL_EN = true ∧ t.flag F.WDT_STATUS_REFUSED = true)

/-- R315 to R317, R374: READY after EN; a start is refused while BUSY, ignored while not READY or frozen, refused for channels 12
to 15, and else begins at slot 0; a conversion writes its slot, NEW and at the last slot DONE; a read clears NEW and OVR; EN = 0
ends a sequence without DONE. The model's readings in it: log entry 62. -/
def Obligations.Converter : Prop :=
  ∀ (s : State) (m : Master) (v : Word) (x : Int) (i : BitVec 3), s.pclkOn = true →
    let s0 := { s with resp := .none }
    let busy := s.flag F.ADC_STATUS_BUSY
    let slot := s.adcSlot
    let frozen := s.flag F.DBG_FREEZE_ADC && s.cc.halted
    let starts := (List.range (s.get F.ADC_CTRL_LEN)).all fun j => decide (s.adcSlotCh j < 12)
    (s.flag F.ADC_CTRL_EN = true → Runs .adcReady s fun t =>
      t.flag F.ADC_STATUS_READY = true ∧ OnlyRegs (fun a => a = R.ADC_STATUS) s t) ∧
    (bitOf v 0 = true → frozen = true → Runs (.adcStart m v) s fun t => t = s0) ∧
    (bitOf v 0 = true → busy = true → frozen = false → Runs (.adcStart m v) s fun t =>
      t.flag F.ADC_STATUS_TRIGOVR = true ∧ t.flag F.ADC_STATUS_BUSY = true ∧ OnlyRegsResp (fun a => a = R.ADC_STATUS) s t) ∧
    (bitOf v 0 = true → busy = false → s.flag F.ADC_STATUS_READY = false → Runs (.adcStart m v) s fun t => t = s0) ∧
    (bitOf v 0 = true → busy = false → s.flag F.ADC_STATUS_READY = true → frozen = false →
      Runs (.adcStart m v) s fun t => t.flag F.ADC_STATUS_BUSY = starts ∧ (starts = true → t.adcSlot = 0) ∧
        (starts = false → t.flag F.ADC_STATUS_SEQERR = true) ∧ SameMem s t ∧ SameRegs (fun a => a = R.ADC_STATUS) s t) ∧
    (bitOf v 31 = false → Runs (.adcEnable m v) s fun t =>
      t.flag F.ADC_CTRL_EN = false ∧ t.flag F.ADC_STATUS_BUSY = false ∧ t.flag F.ADC_STATUS_READY = false ∧
      t.flag F.ADC_STATUS_DONE = s.flag F.ADC_STATUS_DONE) ∧
    (bitOf v 31 = true → Runs (.adcEnable m v) s fun t => t.flag F.ADC_CTRL_EN = true ∧
      OnlyRegsResp (fun a => a = R.ADC_CTRL) s t) ∧
    (busy = true → slot < 8 → Runs (.adcConversionDone x) s fun t =>
      t.flag (F.ADC_RES_NEW slot) = true ∧ bitsOf (t.rd (R.ADC_RES slot)) 0 12 = s.adcCode (s.adcSlotCh slot) x ∧
      (s.flag (F.ADC_RES_NEW slot) = true → t.flag F.ADC_STATUS_OVR = true ∧ t.flag (F.ADC_RES_OVR slot) = true) ∧
      (if slot + 1 < s.get F.ADC_CTRL_LEN then t.adcSlot = slot + 1 ∧ t.flag F.ADC_STATUS_BUSY = true
        else t.flag F.ADC_STATUS_BUSY = false ∧ t.flag F.ADC_STATUS_DONE = true) ∧ SameMem s t) ∧
    (m ≠ .debug → Runs (.adcResRead m i) s fun t =>
      t.resp = .data (s.rd (R.ADC_RES i.toNat)) ∧ t.flag (F.ADC_RES_NEW i.toNat) = false ∧
      t.flag (F.ADC_RES_OVR i.toNat) = false ∧ OnlyRegsResp (fun a => a = R.ADC_RES i.toNat) s t)

/-! ### Heads -/

namespace Sys2Proof.Machine

/-- Head h runs its own raster, no clone follows it or is starting to, and no beam list is in force: the beam's commands then do
what they name and nothing that a list or a clone would add. -/
def State.Alone (s : State) (h : Nat) : Prop :=
  s.running h = true ∧ s.isClone h = false ∧ s.followers h = [] ∧ (s.head h).blAct = none

/-- No profile switch, no way out of REFUGE and no refuge view is asked for, and no clone or stop is due: the frame boundary
of head h only begins the next frame. -/
def State.Steady (s : State) (h : Nat) : Prop :=
  s.prof.target = none ∧ s.mode.exitTo = none ∧ (s.head h).rfgEnter = false ∧ s.flag (F.HEAD_STATUS_STOPPING h) = false ∧
  s.flag F.ARRAY_UNIT_CMD_STATUS_BUSY = false ∧ s.switchesOff h = false

/-- The write of HEAD_h_CTRL alone. -/
def State.withCtrl (s : State) (h : Nat) (v : Word) : State := { s with resp := .none }.maskWrite (R.HEAD_CTRL h) v

end Sys2Proof.Machine

/-- R14, R36, R159: a line starts one below the last; line 0 sets ACT; at the end of a line's active period its slot is free and
cleared; after the last line a frame begins at its first blanking line with the next frame number and VBL, every slot free. The
model's readings in it: log entries 5, 33 and 112. -/
def Obligations.RasterEvents : Prop :=
  ∀ (s : State) (h : Head) (late : BitVec 12), s.Alone h →
    let x := s.head h
    (x.line + 1 < 0 → Runs (.lineStart h late) s fun t => (t.head h).line = x.line + 1 ∧ (t.head h).phase = .running) ∧
    (x.line + 1 = 0 → 0 < x.tim.vactive → (∀ l, l < 8 → bitsOf (s.layer h l).act.srcfmt 30 2 ≠ 1) →
      (∀ l, l < 8 → (s.layer h l).next.bind (·.held) = none) →
      Runs (.lineStart h 0) s fun t => (t.head h).line = 0 ∧ t.flag (F.HEAD_EVT_STATUS_ACT h) = true) ∧
    (0 ≤ x.line → x.endedLine < x.line → Runs (.slotRelease h) s fun t =>
      (t.head h).endedLine = x.line ∧ (t.head h).line = x.line ∧
      (∀ r c b, r < 4 → c < 2560 → b < 4 → t.rawByte (ringKey h r (x.line.toNat % 8) c + b) = 0) ∧
      (∀ k, (k < 0x30000000 + 0x60000 * h.val ∨ 0x30000000 + 0x60000 * h.val + 0x50000 ≤ k) → t.rawByte k = s.rawByte k) ∧
      (t.head h).slots = x.slots.filter (fun d => decide (x.line < (d.2 : Int))) ∧
      ∀ tk : Task, tk.headNo = h.val → tk.slot = x.line.toNat % 8 → tk.line = x.line.toNat + 8 →
        (∀ d, d ∈ x.slots → x.line < (d.2 : Int) → d.1 = tk.ring → d.2 % 8 = tk.slot → d.2 = tk.line) →
        t.slotFree tk = true) ∧
    (s.Steady h → x.line + 1 = x.tim.vactive → x.line ≤ x.endedLine → Runs (.frameBoundary h) s fun t =>
      t.rd (R.HEAD_FRAME h) = s.rd (R.HEAD_FRAME h) + 1 ∧ t.flag (F.HEAD_EVT_STATUS_VBL h) = true ∧
      (t.head h).line = -((t.head h).vblank : Int) ∧ (t.head h).tim = s.timingRegs h ∧ (t.head h).endedLine = -1 ∧
      (t.head h).slots = [] ∧ ∀ tk : Task, tk.headNo = h.val → t.slotFree tk = true)

/-- R12, R29: the dispatcher's line task: its four words name kind, head, layer, ring, slot, line, span, frame, profile and
deadline, it stands last in the root's queue, and the ring's slot is the line's from then on. The model's readings in it: log
entries 92 and 112. -/
def Obligations.LineTask : Prop :=
  ∀ (s : State) (h : Head) (r line : Nat) (x : UnitSt), r < 4 → line < 2048 →
    let n := 4 * h.val + r
    let u := s.ringRoot h r
    let t := s.dispatchRing h r line
    s.flag (F.ARRAY_ROOT_VALID n) = true → s.frzHeld h r = false → s.unit? u = some x → x.policy = 0 → x.queue.length < 8 →
    t.get (F.ARRAY_DISPSTAT_LASTLINE h) = line ∧
    ∃ y k, t.unit? u = some y ∧ y.queue = x.queue ++ [k] ∧ k.isLine = true ∧ k.headNo = h.val ∧ k.ring = r ∧
      k.slot = line % 8 ∧ k.line = line ∧ bitsOf k.mb0 23 3 = s.get (F.ARRAY_ROOT_LAYER n) ∧ k.x0 = 0 ∧
      k.x1 = (s.head h).tim.hactive % 65536 ∧ bitsOf k.mb2 16 16 = bitsOf (s.rd (R.HEAD_FRAME h)) 0 16 ∧
      k.mb3 = s.cycleAt s.now + BitVec.ofNat 32 (s.lineCycles h (s.head h).lead) ∧ k.discard = false ∧
      (t.head h).slots = (s.head h).slots ++ [(r, line)]

/-- R163, R165, R167, R168, R170, R217, R397: a head's start step by step, its refusal with CFGERR, its abandon, a resume's fast
training that fails; stop, withdrawal and the moment the stop takes effect, which clears the rings; a write that would change
CLONE, CLSRC or PHY of a running head is ignored whole; the loss of lock, which the clones of the head, running or starting, do not
survive. The model's readings in it: log entries 42, 43 and 123. -/
def Obligations.HeadStartAndStop : Prop :=
  ∀ (s : State) (m : Master) (h : Head) (v : Word),
    let ph := (s.head h).phase
    let on := v ||| 0x80000000
    let starting := ph = .locking ∨ ph = .training ∨ ph = .ready
    let changes := decide ((v ^^^ s.rd (R.HEAD_CTRL h)) &&& 0x7000000C ≠ 0)
    let s1 := s.withCtrl h on
    (s.pclkOn = true → ph = .stopped → s1.isClone h = false →
      let e := s1.limitFail h (s1.timingRegs h) (s1.rd (R.HEAD_CTRL h))
      Runs (.headStart m h v) s fun t =>
        t.flag (F.HEAD_CTRL_EN h) = true ∧ t.get (F.HEAD_STATUS_CFGERR h) = e % 16 ∧ SameMem s t ∧
        (t.head h).phase = (if e = 0 then .locking else .stopped)) ∧
    (ph = .locking → Runs (.pixelPllLock h) s fun t =>
      let cfg := if (s.head h).fastTrain = true ∧ s.get (F.HEAD_CTRL_PHY h) = 2 then (s.head h).trained
        else s.rd (R.HEAD_PHY_CFG h)
      t.flag (F.HEAD_STATUS_PLLLOCK h) = true ∧ SameMem s t ∧ t.rd (R.HEAD_PHY_LAT h) = BitVec.ofNat 32 (s.phyLat h cfg) ∧
      (t.head h).phyRun = cfg ∧
      (if s.get (F.HEAD_CTRL_PHY h) = 2 then (t.head h).phase = .training
        else (t.head h).phase = .ready ∧ t.flag (F.HEAD_STATUS_PHYUP h) = true)) ∧
    (ph = .locking → Runs (.pixelPllLockTimeout h) s fun t =>
      (t.head h).phase = .stopped ∧ t.flag (F.HEAD_EVT_STATUS_LOCKLOST h) = true ∧ t.get (F.HEAD_STATUS_CFGERR h) = 4 ∧
      SameMem s t ∧ SameRegs (fun a => a = R.HEAD_EVT_STATUS h ∨ a = R.HEAD_STATUS h) s t) ∧
    (ph = .training → Runs (.linkTrainingDone ⟨h, true⟩) s fun t =>
      (t.head h).phase = .ready ∧ t.flag (F.HEAD_STATUS_PHYUP h) = true ∧ SameMem s t ∧
      SameRegs (fun a => a = R.HEAD_STATUS h) s t) ∧
    (ph = .training → (s.head h).fastTrain = true → s.get (F.HEAD_CTRL_PHY h) = 2 → Runs (.linkTrainingDone ⟨h, false⟩) s fun t =>
      (t.head h).phase = .training ∧ (t.head h).fastTrain = false ∧ (t.head h).phyRun = s.rd (R.HEAD_PHY_CFG h) ∧ SameMem s t ∧
      SameRegs (fun a => a = R.HEAD_PHY_LAT h) s t) ∧
    (ph = .ready → s.rasterMode = true → s.isClone h = false → s.followers h = [] → s.Steady h → s.modeNow ≠ 5 →
      (s.head h).blAct = none → Runs (.rasterStart h) s fun t =>
        t.flag (F.HEAD_STATUS_RUN h) = true ∧ (t.head h).phase = .running ∧
        (t.head h).line = -((t.head h).vblank : Int) ∧ (t.head h).tim = s.timingRegs h) ∧
    (s.pclkOn = true → starting → Runs (.headStartAbandon m h v) s fun t =>
      (t.head h).phase = .stopped ∧ t.flag (F.HEAD_CTRL_EN h) = false ∧ t.flag (F.HEAD_STATUS_PHYUP h) = false ∧
      t.flag (F.HEAD_STATUS_PLLLOCK h) = false ∧ SameMem s t) ∧
    (s.pclkOn = true → ph = .running → changes = false → Runs (.headStop m h v) s fun t =>
      (t.head h).phase = .running ∧ t.flag (F.HEAD_STATUS_STOPPING h) = true ∧ t.flag (F.HEAD_CTRL_EN h) = false ∧
      OnlyRegsResp (fun a => a = R.HEAD_CTRL h ∨ a = R.HEAD_STATUS h) s t ∧
      t.get (F.HEAD_CTRL_PHY h) = s.get (F.HEAD_CTRL_PHY h)) ∧
    (s.pclkOn = true → ph = .running → changes = false → Runs (.headStopWithdraw m h v) s fun t =>
      (t.head h).phase = .running ∧ t.flag (F.HEAD_STATUS_STOPPING h) = false ∧ t.flag (F.HEAD_CTRL_EN h) = true ∧
      OnlyRegsResp (fun a => a = R.HEAD_CTRL h ∨ a = R.HEAD_STATUS h) s t) ∧
    (s.pclkOn = true → ph = .running → changes = true → ∀ i, i = Instr.headStop m h v ∨ i = .headStopWithdraw m h v →
      Runs i s fun t => t = { s with resp := .none }) ∧
    (s.Alone h → s.prof.target = none → s.mode.exitTo = none → (s.head h).line + 1 = (s.head h).tim.vactive →
      (s.head h).line ≤ (s.head h).endedLine →
      s.flag (F.HEAD_STATUS_STOPPING h) = true → Runs (.headStopTakeEffect h) s fun t =>
        (t.head h).phase = .stopped ∧ t.flag (F.HEAD_STATUS_RUN h) = false ∧ t.flag (F.HEAD_STATUS_STOPPING h) = false ∧
        t.flag (F.HEAD_STATUS_PHYUP h) = false ∧ t.flag (F.HEAD_STATUS_PLLLOCK h) = false ∧
        (t.head h).slots = [] ∧ (t.head h).doneLines = [] ∧ (∀ o, o ∈ (t.head h).outstanding → o ∈ (s.head h).outstanding) ∧
        ∀ k, 0x30000000 + 0x60000 * h.val ≤ k → k < 0x30000000 + 0x60000 * h.val + 0x50000 → t.rawByte k = 0) ∧
    (ph = .running → s.isClone h = false → s.prof.target = none → s.mode.exitTo = none → Runs (.pixelPllLockLoss h) s fun t =>
      (t.head h).phase = .stopped ∧ t.flag (F.HEAD_STATUS_RUN h) = false ∧ t.flag (F.HEAD_EVT_STATUS_LOCKLOST h) = true ∧
      ∀ c, c ∈ s.followers h → (t.head c).phase = .stopped ∧ t.flag (F.HEAD_EVT_STATUS_CLONELOST c) = true) ∧
    (ph = .running → s.get (F.HEAD_CTRL_PHY h) = 2 → Runs (.phyerr h) s fun t =>
      t.flag (F.HEAD_EVT_STATUS_PHYERR h) = true ∧ OnlyRegs (fun a => a = R.HEAD_EVT_STATUS h) s t)

/-- R35, R54, R161, R162, R171, R196: a running head takes a timing write that keeps its size and passes every limit into its
registers, not yet into its raster; its PLL is not writable; LEAD and DV_HALF take only values in their ranges. The model's
readings in it: log entry 43. -/
def Obligations.HeadSettings : Prop :=
  ∀ (s : State) (m : Master) (h : Head) (r : BitVec 2) (b : Bool) (v : Word), s.pclkOn = true →
    let a := R.HEAD_HTIM_A h + 4 * r.toNat
    let s1 := { s with resp := .none }.maskWrite a v
    let pa := if b then R.HEAD_PLL_B h else R.HEAD_PLL_A h
    let l := v.toNat % 16
    let n := v.toNat % 512
    (s.running h = true → (s1.timingRegs h).hactive = (s.timingRegs h).hactive →
      (s1.timingRegs h).vactive = (s.timingRegs h).vactive → s.limitFail h (s1.timingRegs h) (s.rd (R.HEAD_CTRL h)) = 0 →
      Runs (.timingWrite m h r v) s fun t => t = s1 ∧ (t.head h).tim = (s.head h).tim) ∧
    (s.running h = true → (s1.timingRegs h).hactive ≠ (s.timingRegs h).hactive → Runs (.timingWrite m h r v) s fun t =>
      t.rd a = s.rd a ∧ t.get (F.HEAD_STATUS_CFGERR h) = 1 ∧ OnlyRegsResp (fun c => c = R.HEAD_STATUS h) s t) ∧
    (s.running h = false → Runs (.timingWrite m h r v) s fun t =>
      OnlyRegsResp (fun c => c = a) s t ∧ t.rd a = s1.rd a) ∧
    (s.running h = true → Runs (.pllWrite m h b v) s fun t =>
      t.get (F.HEAD_STATUS_CFGERR h) = 4 ∧ OnlyRegsResp (fun c => c = R.HEAD_STATUS h) s t) ∧
    (s.running h = false → Runs (.pllWrite m h b v) s fun t =>
      OnlyRegsResp (fun c => c = pa) s t ∧ (b = false → t.get (F.HEAD_PLL_A_NDIV h) = v.toNat / 65536 % 128)) ∧
    (1 ≤ l → l ≤ 8 → l + 1 ≤ (s.timingRegs h).v → Runs (.leadWrite m h v) s fun t =>
      t.get (F.ARRAY_DISP_LEAD h) = l ∧ (t.head h).leadPend = some l ∧ (t.head h).lead = (s.head h).lead ∧
      SameMem s t ∧ SameRegs (fun c => c = R.ARRAY_DISP h) s t) ∧
    ((l = 0 ∨ 8 < l ∨ (s.timingRegs h).v < l + 1) → Runs (.leadWrite m h v) s fun t =>
      t = { s with resp := .none, freeCtr := t.freeCtr }) ∧
    (50 ≤ n → n ≤ 500 → Runs (.dvHalfWrite m h v) s fun t =>
      t.get (F.HEAD_DV_HALF_HALF h) = n ∧ (t.head h).dvHalf = (s.head h).dvHalf ∧
      OnlyRegsResp (fun c => c = R.HEAD_DV_HALF h) s t) ∧
    ((n < 50 ∨ 500 < n) → Runs (.dvHalfWrite m h v) s fun t => t = { s with resp := .none })

/-- R150 to R153: FLIP copies a legal next set into the pending set and arms its fence, or is refused with a reason that holds;
FENCE_SIG signals armed fences; a flip is taken at a boundary when no fence holds it, and a fence that times out drops it.
The model's readings in it: log entry 23. -/
def Obligations.Flips : Prop :=
  ∀ (s : State) (m : Master) (h : Head) (l : LayerNo) (v : Word),
    let nx := s.nextSet h l
    let y := s.layer h l
    let cs := flipCauses nx (v.toNat / 256 % 64)
    (s.pclkOn = true → bitOf v 0 = true → cs = [] → Runs (.layerFlip m h l v) s fun t =>
      (t.layer h l).pend = some nx ∧ (t.layer h l).act = y.act ∧
      (t.layer h l).fence = (if bitOf v 1 then some { src := v.toNat / 256 % 64, slot := v.toNat / 65536 % 1024 } else none) ∧
      (t.layer h l).timeout = v.toNat / 2 ^ 28 ∧ t.flag (F.HEAD_L_FLIPSTAT_PENDING h l) = true ∧
      t.flag (F.HEAD_L_FLIPSTAT_SIGNALLED h l) = false ∧ SameMem s t ∧
      SameRegs (fun a => a = R.HEAD_L_FLIPSTAT h l) s t ∧ ∀ j, j < 8 → j ≠ l.val → t.layer h j = s.layer h j) ∧
    (s.pclkOn = true → bitOf v 0 = true → cs ≠ [] → Runs (.layerFlip m h l v) s fun t =>
      t.get (F.HEAD_L_FLIPSTAT_REASON h l) ∈ cs ∧ t.flag (F.HEAD_L_FLIPSTAT_REFUSED h l) = true ∧
      t.flag (F.HEAD_COMP_STATUS_REFUSED h) = true ∧ t.heads = s.heads ∧ SameMem s t) ∧
    (s.pclkOn = true → Runs (.fenceSig m h v) s fun t => t.heads = s.heads ∧ SameMem s t ∧
      ∀ j, j < 8 → t.flag (F.HEAD_L_FLIPSTAT_SIGNALLED h j) =
        (s.flag (F.HEAD_L_FLIPSTAT_SIGNALLED h j) || (bitOf v j && (s.layer h j).fence.isSome))) ∧
    (∀ c, y.pend = some c → (y.fence = none ∨ s.flag (F.HEAD_L_FLIPSTAT_SIGNALLED h l) = true) →
      let t := s.flipLayer h l
      (t.layer h l).act = c ∧ (t.layer h l).pend = none ∧ t.rd (R.HEAD_L_ACT_BASE h l) = c.base ∧
      natBit (t.get (F.HEAD_COMP_STATUS_FLIPDONE h)) l = true) ∧
    (s.running h = true → s.frozen h = false → y.pend.isSome = true → y.fence.isSome = true →
      s.flag (F.HEAD_L_FLIPSTAT_SIGNALLED h l) = false → y.timeout ≠ 0 →
      s.get (F.HEAD_L_FLIPSTAT_WAITED h l) + 1 = y.timeout → Runs (.fenceTimeout h l) s fun t =>
        (t.layer h l).pend = none ∧ (t.layer h l).act = y.act ∧ natBit (t.get (F.HEAD_COMP_STATUS_FTO h)) l = true ∧
        t.flag (F.HEAD_L_FLIPSTAT_PENDING h l) = false ∧ SameMem s t)

/-- R173 to R176: arming starts the check; the check accepts a list without a fault and refuses any other with the reason of its
first fault; an entry of the head's own block is written when the beam reaches it; the AUD queue drains in order; the list
memory is not writable while it is in use. The model's readings in it: log entry 93. -/
def Obligations.BeamLists : Prop :=
  ∀ (s : State) (m : Master) (h : Head) (b : Bool) (i : BitVec 12) (v : Word),
    let x := s.head h
    let key := 0x40108000 + 0x10000 * h.val + (if b then 0x4000 else 0) + 4 * i.toNat
    (s.pclkOn = true → x.blCheck = none → Runs (.beamListArm m h v) s fun t =>
      (t.head h).blCheck = some (v.toNat / 65536 % 2, v.toNat % 2048) ∧ (t.head h).blAct = x.blAct ∧
      (t.head h).blPend = x.blPend ∧ SameMem s t) ∧
    (s.pclkOn = true → x.blCheck.isSome = true → Runs (.beamListArm m h v) s fun t =>
      t.heads = s.heads ∧ t.flag (F.HEAD_EVT_STATUS_BLREF h) = true ∧ t.get (F.HEAD_BL_STATUS_REASON h) = 7) ∧
    (∀ k n, x.blCheck = some (k, n) → 1024 < n → Runs (.beamListCheckDone h) s fun t =>
      (t.head h).blCheck = none ∧ (t.head h).blPend = x.blPend ∧ t.flag (F.HEAD_EVT_STATUS_BLREF h) = true ∧
      t.get (F.HEAD_BL_STATUS_REASON h) = 1) ∧
    (∀ k n, x.blCheck = some (k, n) → n ≤ 1024 → k < 2 →
      let r := blCheck h (s.blTiming h).1 (s.blTiming h).2 [] ((List.range n).map fun j => blEntry (s.blWords h k j))
      Runs (.beamListCheckDone h) s fun t => (t.head h).blCheck = none ∧ (t.head h).blAct = x.blAct ∧ SameMem s t ∧
        (r = 0 → (t.head h).blPend = some (k, n) ∧ t.rd (R.HEAD_BL_CTRL h) = BitVec.ofNat 32 (k * 65536 + n)) ∧
        (r ≠ 0 → (t.head h).blPend = x.blPend ∧ t.get (F.HEAD_BL_STATUS_REASON h) = r % 16)) ∧
    (∀ j e u l, s.running h = true → s.frozen h = false → s.blNext h = some (j, (e, false), u) → e.line = x.line →
      x.line < 0 → -(x.vblank : Int) ≤ e.line → -(x.tim.hblank : Int) ≤ e.hpos → e.hpos < x.tim.hactive → l < 8 →
      j < 1024 → e.addr = R.HEAD_L_POS h l → Runs (.beamListEntry h) s fun t =>
        t.rd (R.HEAD_L_POS h l) = e.value ∧ t.get (F.HEAD_BL_STATUS_NEXT h) = j + 1 ∧
        (e.evt = true → t.flag (F.HEAD_EVT_STATUS_BLEVT h) = true) ∧ SameMem s t) ∧
    (∀ e q, s.pclkOn = true → s.aud.queue = e :: q → e.1 = BitVec.ofNat 32 R.AUD_IE → Runs .beamListAudWrite s fun t =>
      t.aud.queue = q ∧ t.rd R.AUD_IE &&& 0x3EFF = e.2 &&& 0x3EFF ∧ SameMem s t ∧ SameRegs (fun a => a = R.AUD_IE) s t) ∧
    (s.pclkOn = true → i.toNat < 4096 → s.bankBusy h (if b then 1 else 0) = false → Runs (.blmemWrite m h b i v) s fun t =>
      t.rawWord key = v ∧ SameRegs (fun _ => False) s t ∧ ∀ k, (k < key ∨ key + 4 ≤ k) → t.rawByte k = s.rawByte k) ∧
    (s.pclkOn = true → s.bankBusy h (if b then 1 else 0) = true → Runs (.blmemWrite m h b i v) s fun t =>
      SameMem s t ∧ t.flag (F.HEAD_EVT_STATUS_BLWERR h) = true)

/-- R183, R187 to R191, R193 to R196: the pad signature of a window that has left the compositor is judged against the internal and
the expected one, in the frame it belongs to, which may have ended; signatures and RESULT are written together, and a failure
raises the interrupt that its window asks for; a framing fault fails the internal comparison until the next vertical sync; a
request ends refuge view at the boundary; DVALID toggles, is driven low first, or is released. The model's readings in it: log
entries 90 and 91. -/
def Obligations.MirageCheck : Prop :=
  ∀ (s : State) (m : Master) (h : Head) (n : WindowNo) (err v : Word),
    let x := s.head h
    let w := x.win n
    let wo := x.old.win n
    let int := ~~~w.crc
    let pad := int ^^^ err
    let y1 : Int := bitsOf w.rectB 16 12
    let expf := bitOf w.ctrl 30 && !x.reduced && pad != w.expect
    let intf := bitOf w.ctrl 29 && pad != int
    (s.running h = true → s.isClone h = false → w.live = true → w.final = false → x.framing = false → y1 ≤ x.line →
      x.old.pending n = false → bitOf w.ctrl 28 = false → bitOf w.ctrl 20 = false → Runs (.padSignatureFinal h n err) s fun t =>
        t.rd (R.HEAD_W_PADSIG h n) = pad ∧ t.rd (R.HEAD_W_INTSIG h n) = int ∧
        t.get (F.HEAD_W_RESULT_FRAME h n) = bitsOf (s.rd (R.HEAD_FRAME h)) 0 16 ∧
        ((bitOf w.ctrl 30 = true ∧ x.reduced = false ∨ bitOf w.ctrl 29 = true) → t.flag (F.HEAD_W_RESULT_VALID h n) = true) ∧
        t.flag (F.HEAD_W_RESULT_EXPF h n) = expf ∧ t.flag (F.HEAD_W_RESULT_INTF h n) = intf ∧
        (t.flag (F.HEAD_W_RESULT_PASS h n) = true → (expf || intf) = false) ∧
        ((expf || intf) = true → natBit (t.get (F.HEAD_CHK_WFAIL_W h)) n = true ∧
          (bitOf w.ctrl 21 = true → t.flag (F.HEAD_CHK_STATUS_DVSTOP h) = true) ∧
          (bitOf w.ctrl 23 = true → t.irqLevel (20 + h.val) = true)) ∧
        ((t.head h).win n).final = true ∧ SameMem s t) ∧
    (x.old.pending n = true → bitOf wo.ctrl 28 = false → bitOf wo.ctrl 20 = false → bitOf wo.ctrl 30 = true →
      x.old.reduced = false → Runs (.padSignatureFinal h n err) s fun t =>
        t.rd (R.HEAD_W_PADSIG h n) = ~~~wo.crc ^^^ err ∧ t.flag (F.HEAD_W_RESULT_VALID h n) = true ∧
        t.get (F.HEAD_W_RESULT_FRAME h n) = bitsOf x.old.frame 0 16 ∧
        t.flag (F.HEAD_W_RESULT_EXPF h n) = (~~~wo.crc ^^^ err != wo.expect) ∧
        (t.head h).old.pending n = false ∧ (t.head h).win n = w ∧ SameMem s t) ∧
    (s.running h = true → x.framing = false → x.old.unsynced = false → Runs (.framingFault h) s fun t =>
      t.flag (F.HEAD_CHK_STATUS_FRAMING h) = true ∧ (t.head h).framing = true ∧ SameMem s t ∧
      (w.live = true → bitOf w.ctrl 29 = true → natBit (t.get (F.HEAD_CHK_WFAIL_W h)) n = true)) ∧
    Runs (.recoveredVerticalSync h) s (fun t =>
      t = s.modHead h fun z => { z with framing := false, old := { z.old with unsynced := false } }) ∧
    (s.pclkOn = true → bitOf v 0 = true → s.modeNow ≠ 5 → s.inRefugeView h = true → Runs (.refugeViewExitRequest m h v) s fun t =>
      (t.head h).rfgExit = true ∧ t.inRefugeView h = true ∧ SameMem s t ∧ SameRegs (fun _ => False) s t) ∧
    (s.pclkOn = true → (s.dvRestart h).dvOk h = true → Runs (.dvalidTick h) s fun t =>
      (t.head h).dvalid = some (match x.dvalid with | some b => !b | none => false) ∧
      t.flag (F.HEAD_CHK_STATUS_DVRUN h) = x.dvalid.isSome ∧ SameMem s t) ∧
    (s.pclkOn = true → (s.dvRestart h).dvOk h = false → Runs (.dvalidTick h) s fun t =>
      (t.head h).dvalid = none ∧ t.flag (F.HEAD_CHK_STATUS_DVRUN h) = false ∧ SameMem s t)

/-! ### Units, boot, profiles -/

namespace Sys2Proof.Machine

/-- Nothing on the way of boot but what the command brings: no debugger, no hold by heat, pin or supply. -/
def State.BootFree (s : State) : Prop :=
  s.flag F.DBG_CTRL_ATTACH = false ∧ s.mode.thermHold = false ∧ s.mode.pinHold = false ∧ s.mode.pfwHold = false

end Sys2Proof.Machine

/-- R25 to R27, R30, R49, R396: a doorbell queues the mailbox, and a full queue refuses it; the debugger rings a face without a
slot by its unit ID; a copy goes on to a child with room; a completion takes the oldest task and latches the result; a root unit
parks, each engine after its current instruction, and restarts, a live one waits for its boundary. The model's readings in it: log
entries 35, 76 and 128. -/
def Obligations.UnitsAndTasks : Prop :=
  ∀ (s : State) (m : Master) (u : UnitId) (x : UnitSt) (v : Word) (e : EngineNo) (ch : BitVec 6), s.unit? u.toNat = some x →
    let live := s.isLiveRoot u.toNat
    let busy := s.flag F.ARRAY_UNIT_CMD_STATUS_BUSY
    (∀ sl, s.pclkOn = true → x.slot = some sl → sl < 1024 → s.unitOfSlot sl = some u.toNat → live = false → x.policy = 0 →
      bitOf v 0 = true →
      (x.queue.length < 8 → Runs (.faceDoorbell m u v) s fun t => SameMem s t ∧ SameRegs (fun _ => False) s t ∧
        ∃ y k, t.unit? u.toNat = some y ∧ y.queue = x.queue ++ [k] ∧ k.mb0 = x.mb0 ∧ k.mb1 = x.mb1 ∧ k.mb2 = x.mb2 ∧
          k.mb3 = x.mb3) ∧
      (8 ≤ x.queue.length → Runs (.faceDoorbell m u v) s fun t =>
        t.units = s.units ∧ t.flag F.ARRAY_STATUS_QFULL = true ∧ SameMem s t)) ∧
    (s.pclkOn = true → x.slot = none → live = false → x.policy = 0 → bitOf v 0 = true → x.queue.length < 8 →
      Runs (.faceDoorbell .debug u v) s fun t => SameMem s t ∧ SameRegs (fun _ => False) s t ∧
        ∃ y k, t.unit? u.toNat = some y ∧ y.queue = x.queue ++ [k] ∧ k.mb0 = x.mb0 ∧ k.mb1 = x.mb1 ∧ k.mb2 = x.mb2 ∧
          k.mb3 = x.mb3) ∧
    (x.slot = none → m ≠ .debug → Runs (.faceDoorbell m u v) s fun t => t = s) ∧
    (∀ c y k, s.childAt u.toNat ch.toNat = some c → c ≠ u.toNat → s.unit? c = some y → y.policy = 0 →
      x.queue.find? (fun q => q.togo.contains ch.toNat) = some k →
      (y.x0 < 65536 → y.queue.length < 8 → Runs (.caravanForward u ch) s fun t => SameMem s t ∧ SameRegs (fun _ => False) s t ∧
        ∃ z q, t.unit? c = some z ∧ z.queue = y.queue ++ [q] ∧ q.tid = k.tid ∧ q.mb0 = k.mb0 ∧ q.mb2 = k.mb2 ∧ q.mb3 = k.mb3 ∧
          (if x.policy = 1 ∧ k.isLine = true then q.x0 = max y.x0 k.x0 % 65536 ∧ q.x1 = min y.x1 k.x1 % 65536
            else q.mb1 = k.mb1)) ∧
      (8 ≤ y.queue.length → Runs (.caravanForward u ch) s fun t => t = s)) ∧
    (∀ k q, s.unitOfEngine e.val = some u.toNat → x.queue = k :: q → k.src = .outside →
      Runs (.faceComplete e v) s fun t => SameMem s t ∧
        ∃ y, t.unit? u.toNat = some y ∧ y.queue = q ∧ y.result = v ∧ y.fault = x.fault ∧
          (∀ sl, x.slot = some sl → sl < 1024 → k.isLine = false →
            natBit (t.get (F.ARRAY_MBX_PEND_BITS (sl / 32))) (sl % 32) = true)) ∧
    (s.pclkOn = true → busy = false → x.parent = 0 → live = false → Runs (.unitPark m u) s fun t =>
      t.get F.ARRAY_UNIT_CMD_STATUS_RESULT = 0 ∧ t.units = s.units ∧ SameMem s t ∧
      SameRegs (fun a => a = R.ARRAY_UNIT_CMD_STATUS) s t ∧
      ∀ j, t.engine j = if j ∈ s.leavesOf u.toNat then
          if (s.engine j).stalled.isSome then { s.engine j with parkReq := true }
          else { s.engine j with parked := true, asleep := false, stalled := none, parkReq := false, cmdParked := true }
        else s.engine j) ∧
    (s.pclkOn = true → busy = false → x.parent = 0 → live = false → Runs (.unitRestart m u) s fun t =>
      t.get F.ARRAY_UNIT_CMD_STATUS_RESULT = 0 ∧ SameMem s t ∧
      ∀ w y, w ∈ s.family u.toNat → s.unit? w = some y →
        t.unit? w = some { y with queue := [], fault := 0 } ∧
        (y.policy = 0 → s.startable w y = true → (t.engine y.engine).parked = false ∧ (t.engine y.engine).started = true ∧
          (t.engine y.engine).status = 2 ∧ (t.engine y.engine).g = [])) ∧
    (s.pclkOn = true → busy = false → x.parent = 0 → live = true → ∀ c, c = Instr.unitPark m u ∨ c = Instr.unitRestart m u →
      Runs c s fun t => t.flag F.ARRAY_UNIT_CMD_STATUS_BUSY = true ∧ t.units = s.units ∧ t.eng = s.eng ∧ SameMem s t) ∧
    (s.pclkOn = true → busy = true → ∀ c, c = Instr.unitPark m u ∨ c = Instr.unitRestart m u →
      Runs c s fun t => t.get F.ARRAY_UNIT_CMD_STATUS_RESULT = 3 ∧ t.units = s.units ∧ t.eng = s.eng)

/-- R55, R56, R58, R205, R206, R244, R358, R381: boot from the reset's release, which needs bank D's supply, over the PLLs and the
march, which leaves every memory on the chip zero and shows each memory with a failing cell, to the trial of a slot; a PLL that
fails locks only after its retry; a slot without an answer gives way to the other. The model's readings in it: log entries 81 and
94. -/
def Obligations.BootToSlot : Prop :=
  ∀ (s : State) (sel : BitVec 2) (en : Bool) (d : Defects), s.BootFree →
    let ph := s.boot.phase
    (ph = .inReset → s.bankUp 3 = true → Runs (.resetRelease sel en) s fun t =>
      t.boot.phase = .started ∧ t.get F.CFG_STATUS_BOOTSEL = sel.toNat ∧ t.pins.resetLow = false ∧
      t.flag F.PCIE_STATUS_STRAP = en ∧ t.mode.vsel = true ∧ SameMem s t) ∧
    (ph = .inReset → s.bankUp 3 = false → Runs (.resetRelease sel en) s fun t =>
      t = { s with pins := { s.pins with resetLow := false } }) ∧
    (ph = .started → s.boot.eclkFail = false → Runs (.corePllLock .eclk d) s fun t =>
      t.boot.phase = .eclkLocked ∧ t.flag F.SYS_CLK_STATUS_ECLKLOCK = true ∧
      OnlyRegs (fun a => a = R.SYS_CLK_STATUS) { s with boot := t.boot } t) ∧
    (ph = .eclkLocked → s.boot.pclkFail = false → s.tap.run = none → s.boot.sel < 2 → Runs (.corePllLock .pclk d) s fun t =>
      t.boot.phase = .streaming ∧ t.boot.slot = s.boot.sel ∧ t.get F.CFG_STATUS_STAGE = 2 + s.boot.sel ∧
      t.flag F.SYS_CLK_STATUS_PCLKLOCK = true ∧
      (∀ b, bitOf (t.rd R.STORE_BOOT_FAIL) b =
        (decide (b < 19) && (d.memories.getLsbD b || d.cells.any fun c => bootFailBit c.1 == some b))) ∧
      t.boot.cells = d.cells.filter (fun c => (bootFailBit c.1).isSome) ∧
      (∀ k, 0x10000 ≤ k → (k < 0x80000000 ∨ 0x100000000 ≤ k) → t.rawByte k = 0) ∧
      (∀ k, k < 0x10000 → t.rawByte k = s.rawByte k) ∧
      ∀ p, p < 1024 → natBit (t.get (F.ARRAY_FENCE_BITS (p / 32))) (p % 32) =
        (d.engines.contains p || d.ridges.contains (p / 8))) ∧
    (ph = .eclkLocked → s.boot.pclkFail = false → s.tap.run = none → s.boot.sel = 3 → Runs (.corePllLock .pclk d) s fun t =>
      t.boot.phase = .waitLoop ∧ t.cc.started = true) ∧
    (∀ w, ph = .eclkLocked → s.boot.pclkFail = false → s.tap.run = some (true, 7, w) → s.boot.sel < 2 →
      Runs (.corePllLock .pclk d) s fun t => t.boot.phase = .streaming ∧ t.tap.run = none ∧ t.tap.done = true ∧
        t.rd R.DBG_MEM_ADDR &&& 0xFFFFFFFC = w &&& 0xFFFFFFFC) ∧
    (ph = .started → Runs (.corePllLockTimeout .eclk) s fun t => t.boot.phase = .started ∧ t.boot.eclkFail = true ∧
      t = { s with boot := t.boot }) ∧
    (s.boot.eclkFail = true → ph = .started → Runs (.corePllLock .eclk d) s fun t => t = s) ∧
    (Runs (.corePllRetry .eclk) s fun t => t.boot.eclkFail = false ∧ t = { s with boot := t.boot }) ∧
    (Runs (.corePllRetry .pclk) s fun t => t.boot.pclkFail = false ∧ t = { s with boot := t.boot }) ∧
    (ph = .streaming → s.cc.halted = false → s.boot.slot = 0 → s.boot.tried = 0 → Runs .flashNoAnswer s fun t =>
      t.get F.CFG_STATUS_REASON_A = 1 ∧ t.boot.phase = .streaming ∧ t.boot.slot = 1 ∧ t.boot.tried = 1 ∧
      t.get F.CFG_STATUS_STAGE = 3 ∧ SameMem s t) ∧
    (ph = .streaming → s.cc.halted = false → s.boot.slot = 1 → s.boot.tried = 0 → Runs .flashNoAnswer s fun t =>
      t.get F.CFG_STATUS_REASON_B = 1 ∧ t.boot.phase = .streaming ∧ t.boot.slot = 0 ∧ t.boot.tried = 1 ∧
      t.get F.CFG_STATUS_STAGE = 2 ∧ SameMem s t)

/-- R56, R57, R60, R64 to R66, R72, R73, R132, R201: what the slot's stream and the DRAM's training lead to: the first failing
check names its reason, a sound image waits in stage 6 for its heads; then the control core starts, FULL begins, or LEAN or its
entry where a LEAN trigger is active, and the first picture ends boot. The model's readings in it: log entries 81 and 88. -/
def Obligations.BootToPicture : Prop :=
  ∀ (s : State) (us : Word) (ok : Bool), s.cc.halted = false →
    let ph := s.boot.phase
    let firstFails := fun (t : State) (r : Nat) => t.get F.CFG_STATUS_REASON_A = r ∧ t.boot.slot = 1 ∧
      t.boot.phase = .streaming ∧ t.get F.CFG_STATUS_STAGE = 3
    (ph = .streaming → s.boot.slot = 0 → s.boot.tried = 0 → ∀ r, s.slotImg 0 = .inl r → r < 16 →
      Runs .sectionStreamDone s fun t => firstFails t r ∧ SameMem s t) ∧
    (ph = .streaming → ∀ m, s.slotImg s.boot.slot = .inr m → m.hdr.usesDram = true → s.boot.dramAnswered = false →
      Runs .sectionStreamDone s fun t => t.boot.phase = .training ∧ t = { s with boot := t.boot }) ∧
    (ph = .streaming → s.boot.slot = 0 → s.boot.tried = 0 → ∀ m, s.slotImg 0 = .inr m → m.hdr.usesDram = false →
      (m.crcOk = false → Runs .sectionStreamDone s fun t => firstFails t 5) ∧
      (m.crcOk = true → m.sectionsOk = false → Runs .sectionStreamDone s fun t => firstFails t 6) ∧
      (m.crcOk = true → m.sectionsOk = true → (m.authOk s.fuses).1 = false → Runs .sectionStreamDone s fun t => firstFails t 7) ∧
      (m.crcOk = true → m.sectionsOk = true → (m.authOk s.fuses).1 = true → m.structureOk = false →
        Runs .sectionStreamDone s fun t => firstFails t 8) ∧
      (m.crcOk = true → m.sectionsOk = true → (m.authOk s.fuses).1 = true → m.structureOk = true →
        Runs .sectionStreamDone s fun t => t.boot.phase = .heads ∧ t.get F.CFG_STATUS_STAGE = 6)) ∧
    ((ph = .streaming ∨ ph = .training) → s.boot.dramAnswered = false → ∀ m, s.slotImg s.boot.slot = .inr m →
      m.hdr.usesDram = true → (ph = .streaming ∨ ok = false) → Runs (.dramTrainingDone ok) s fun t =>
        t.boot.dramAnswered = true ∧ t.boot.dramOk = ok ∧ t.flag F.SYS_CLK_STATUS_DRAMLOCK = ok ∧
        (ph = .streaming → t.boot.phase = .streaming ∧ SameMem s t) ∧
        (ph = .training → s.boot.slot = 0 → s.boot.tried = 0 → firstFails t 9)) ∧
    (ph = .heads → (∀ h, h < 4 → (s.head h).phase ≠ .locking ∧ (s.head h).phase ≠ .training) →
      s.flag F.CFG_STATUS_DFLT = false → s.flag F.SYS_REFUGE_CAUSE_SPARE = false → s.leanActive = false →
      Runs .bootHeadsUp s fun t => t.flag F.CFG_STATUS_LOADED = true ∧ t.boot.phase = .picture ∧
        t.cc = { s.cc with started := true, ready := s.now } ∧ t.modeNow = 2 ∧ t.flag F.SYS_MODE_TRANS = false ∧
        t.flag F.SYS_EVT_STATUS_MODECHG = true ∧ t.aud.unmuted = true ∧ SameMem s t) ∧
    (ph = .heads → (∀ h, h < 4 → (s.head h).phase ≠ .locking ∧ (s.head h).phase ≠ .training) →
      (s.flag F.CFG_STATUS_DFLT = true ∨ s.flag F.SYS_REFUGE_CAUSE_SPARE = true) →
      Runs .bootHeadsUp s fun t => t.boot.phase = .picture ∧ t.modeNow = 5 ∧ t.halved = true) ∧
    (ph = .heads → (∀ h, h < 4 → (s.head h).phase ≠ .locking ∧ (s.head h).phase ≠ .training) →
      s.flag F.CFG_STATUS_DFLT = false → s.flag F.SYS_REFUGE_CAUSE_SPARE = false → s.leanActive = true →
      Runs .bootHeadsUp s fun t => t.flag F.CFG_STATUS_LOADED = true ∧ t.boot.phase = .picture ∧ t.cc.started = true ∧
        t.aud.unmuted = true ∧ SameMem s t ∧
        (if s.prof.leanActive = true ∧ s.prof.target = none then
          t.modeNow = 3 ∧ t.halved = true ∧ t.mode.vsel = false ∧ t.flag F.SYS_MODE_TRANS = false
        else t.modeNow = s.modeNow ∧ t.flag F.SYS_MODE_TRANS = true ∧ t.get F.SYS_MODE_TARGET = 3 ∧
          t.prof.target = some (s.profOf, true) ∧ t.prof.forMode = some 3)) ∧
    (ph = .picture → Runs (.firstPicture us) s fun t => t.boot.phase = .done ∧ t.get F.CFG_STATUS_STAGE = 7 ∧
      t.rd R.CFG_BOOT_TIME = us ∧ SameMem s t ∧ SameRegs (fun a => a = R.CFG_STATUS ∨ a = R.CFG_BOOT_TIME) s t)

/-- R74 to R76, R337: a profile request is refused while a switch runs and for a profile that is not there, done at once for the
one in force, and else begins a switch; stage 1 leads to stage 2 at the boundaries of the heads that have not switched, or the
switch fails; a reload ends or fails; both wait for a QSPI command that runs. The model's readings in it: log entries 36 and 87. -/
def Obligations.ProfileSwitch : Prop :=
  ∀ (s : State) (m : Master) (v : Word) (u : UnitId), s.pclkOn = true →
    let p := v.toNat % 8
    let busy := s.flag F.CFG_PROFILE_STATUS_BUSY
    (busy = true → Runs (.profileSwitchRequest m v) s fun t => t.get F.CFG_PROFILE_STATUS_RESULT = 2 ∧ t.prof = s.prof ∧
      OnlyRegsResp (fun a => a = R.CFG_PROFILE_STATUS) s t) ∧
    (busy = false → s.flag (F.CFG_PROF_INFO_VALID p) = false → Runs (.profileSwitchRequest m v) s fun t =>
      t.get F.CFG_PROFILE_STATUS_RESULT = 1 ∧ OnlyRegsResp (fun a => a = R.CFG_PROFILE_STATUS) s t) ∧
    (busy = false → s.flag (F.CFG_PROF_INFO_VALID p) = true → p = s.get F.CFG_PROFILE_STATUS_ACTIVE →
      Runs (.profileSwitchRequest m v) s fun t => t.get F.CFG_PROFILE_STATUS_RESULT = 0 ∧ t.prof = s.prof ∧
        t.flag F.CFG_PROFILE_STATUS_DONE = true ∧ t.flag F.CFG_PROFILE_STATUS_BUSY = false) ∧
    (busy = false → s.prof.target = none → s.flag (F.CFG_PROF_INFO_VALID p) = true → p ≠ s.get F.CFG_PROFILE_STATUS_ACTIVE →
      Runs (.profileSwitchRequest m v) s fun t => t.get F.CFG_PROFILE_STATUS_RESULT = 0 ∧
        t.prof.target = some (p, s.modeNow == 3) ∧ t.prof.plan = none ∧ t.flag F.CFG_PROFILE_STATUS_BUSY = true ∧
        t.get F.CFG_PROFILE_STATUS_HEADSDONE = 0 ∧ SameMem s t ∧
        SameRegs (fun a => a = R.CFG_PROFILE ∨ a = R.CFG_PROFILE_STATUS) s t) ∧
    (s.flashBusy = true → (Runs .profileStage1Done s fun t => t = s) ∧ Runs (.profileReloadDone u) s fun t => t = s) ∧
    (∀ q lean, s.flashBusy = false → s.prof.target = some (q, lean) → s.prof.plan = none → s.readPlan q lean = none →
      s.prof.forMode = none → Runs .profileStage1Done s fun t => t.flag F.CFG_PROFILE_STATUS_FAIL = true ∧
        t.get F.CFG_PROFILE_STATUS_RESULT = 3 ∧
        t.flag F.CFG_PROFILE_STATUS_BUSY = false ∧ t.prof.target = none ∧
        t.get F.CFG_PROFILE_STATUS_ACTIVE = s.get F.CFG_PROFILE_STATUS_ACTIVE ∧ SameMem s t ∧
        SameRegs (fun a => a = R.CFG_PROFILE_STATUS) s t) ∧
    (∀ q lean x codes, s.flashBusy = false → s.prof.target = some (q, lean) → s.prof.plan = none →
      s.readPlan q lean = some (x, codes) → (∃ h, h < 4 ∧ natBit s.prof.heads h = true ∧ h ∉ s.prof.switched) →
      (∀ h, h < 4 → natBit s.prof.heads h = true → s.running h = true) → Runs .profileStage1Done s fun t =>
        t.prof.plan = some x ∧ t.prof.target = some (q, lean) ∧ t.heads = s.heads ∧
        t.prof.todo = [0, 1, 2, 3].filter (fun h =>
          (natBit s.prof.heads h || natBit x.heads h) && !s.prof.switched.contains h) ∧
        SameRegs (fun _ => False) s t) ∧
    (∀ b code, s.flashBusy = false → s.prof.reload.find? (fun b => b.unit == u.toNat && !s.prof.reloaded.contains u.toNat) = some b →
      (s.readSection 2 b.program).bind readProgram = some code → s.running b.head = true →
      Runs (.profileReloadDone u) s fun t => t.prof.reloaded = u.toNat :: s.prof.reloaded ∧ t.heads = s.heads ∧
        t.prof.reload = s.prof.reload ∧ SameRegs (fun _ => False) s t) ∧
    (∀ b, s.flashBusy = false → s.prof.reload.find? (fun b => b.unit == u.toNat && !s.prof.reloaded.contains u.toNat) = some b →
      (s.readSection 2 b.program).bind readProgram = none → (∃ c, c ∈ s.prof.reload ∧ c ≠ b) →
      Runs (.profileReloadDone u) s fun t => t.flag F.CFG_PROFILE_STATUS_FAIL = true ∧
        t.prof.reload = s.prof.reload.filter (· != b) ∧ t.eng = s.eng ∧ SameMem s t)

/-! ### Modes -/

/-- R201 to R203, R209 to R211, R213, R214, R219, R221, R222: what a mode request does from FULL, LEAN and REFUGE with no
transition under way, which of them abandons a transition of lower rank, which requests are refused and with which code, and that a
refused one changes nothing else. The model's readings in it: log entries 46, 47 and 48. -/
def Obligations.ModeRequests : Prop :=
  ∀ (s : State) (m : Master), s.pclkOn = true →
    let still := s.flag F.SYS_MODE_TRANS = false
    let result := fun (t : State) => t.get F.SYS_MODE_RESULT_RESULT
    let towards := fun (t : State) (n : Nat) => t.flag F.SYS_MODE_TRANS = true ∧ t.get F.SYS_MODE_TARGET = n
    let refused := fun (c : Instr) (r : Nat) => Runs c s fun t =>
      result t = r ∧ OnlyRegsResp (fun a => a = R.SYS_MODE_RESULT) s t
    let dark := fun (c : Instr) (n : Nat) => Runs c s fun t =>
      result t = 0 ∧ towards t n ∧ t.mode.entryStep = 1 ∧ t.modeNow = s.modeNow ∧ t.aud.unmuted = false ∧
      ∀ h, h < 4 → (t.head h).phase = .stopped ∧ (t.head h).dvalid = none
    ((still ∧ (s.modeNow = 2 ∨ s.modeNow = 3 ∨ s.modeNow = 5) ∨ s.flag F.SYS_MODE_TRANS = true ∧
        (s.get F.SYS_MODE_TARGET = 2 ∨ s.get F.SYS_MODE_TARGET = 3 ∨ s.get F.SYS_MODE_TARGET = 5)) →
      dark (.modeReqHold m) 4 ∧ dark (.modeReqDormant m) 0) ∧
    (s.flag F.SYS_MODE_TRANS = true → (s.get F.SYS_MODE_TARGET = 2 ∨ s.get F.SYS_MODE_TARGET = 3) → s.modeNow = 5 →
      Runs (.modeReqRefuge m) s fun t => result t = 0 ∧ t.modeNow = 5 ∧ t.flag F.SYS_MODE_TRANS = false ∧
        t.flag F.SYS_REFUGE_CAUSE_REQ = true ∧ t.halved = true ∧ t.mode.exitTo = none ∧ t.mode.raise = none) ∧
    (still → (s.modeNow = 2 ∨ s.modeNow = 3) → Runs (.modeReqRefuge m) s fun t => result t = 0 ∧ t.modeNow = 5 ∧
      t.flag F.SYS_REFUGE_CAUSE_REQ = true ∧ t.halved = true ∧ t.flag F.SYS_EVT_STATUS_MODECHG = true ∧
      ∀ h, h < 4 → s.running h = true → (t.head h).rfgEnter = true) ∧
    (still → s.modeNow = 2 → (s.prof.leanActive = false ∨ s.prof.target.isSome = true) → Runs (.modeReqLean m) s fun t =>
      result t = 0 ∧ towards t 3 ∧ t.modeNow = 2 ∧ t.flag F.SYS_LEAN_CAUSE_REQ = true ∧
      t.prof.target = some (s.profOf, true) ∧ t.prof.forMode = some 3 ∧ t.heads = s.heads ∧ SameMem s t) ∧
    (still → s.modeNow = 3 → s.leanActive = false → Runs (.modeReqFull m) s fun t =>
      result t = 0 ∧ towards t 2 ∧ t.modeNow = 3 ∧ t.flag F.SYS_STATUS_VSEL = true ∧ t.mode.vsel = true ∧ t.mode.raise = some 2 ∧
      t.halved = s.halved ∧ SameMem s t) ∧
    (still → s.modeNow = 3 → s.leanActive = true → refused (.modeReqFull m) 4) ∧
    (still → s.modeNow = 5 → s.flag F.SYS_REFUGE_CAUSE_DFLT = true → refused (.modeReqFull m) 5 ∧ refused (.modeReqLean m) 5) ∧
    (still → s.modeNow = 5 → s.flag F.SYS_REFUGE_CAUSE_DFLT = false → s.flag F.SYS_REFUGE_CAUSE_SPARE = false →
      s.flag F.SYS_REFUGE_CAUSE_LEANFAIL = false → s.leanActive = false → Runs (.modeReqFull m) s fun t =>
        result t = 0 ∧ towards t 2 ∧ t.mode.raise = some 2 ∧ t.flag F.SYS_STATUS_VSEL = true ∧ t.modeNow = 5) ∧
    (still → s.modeNow = 2 → refused (.modeReqFull m) 2) ∧
    (still → s.modeNow = 1 → refused (.modeReqFull m) 2 ∧ refused (.modeReqLean m) 2 ∧ refused (.modeReqRefuge m) 2 ∧
      refused (.modeReqHold m) 2 ∧ refused (.modeReqDormant m) 2) ∧
    (s.flag F.SYS_MODE_TRANS = true → s.get F.SYS_MODE_TARGET = 4 → refused (.modeReqHold m) 3 ∧
      refused (.modeReqDormant m) 6 ∧ refused (.modeReqRefuge m) 6 ∧ refused (.modeReqLean m) 6 ∧ refused (.modeReqFull m) 6)

/-- R203, R205, R207 to R209, R211, R212, R221: LEAN triggers and the levels behind them, from FULL and on the way out of REFUGE,
which goes on to LEAN with its clocks; the limits that SYS_THERM keeps, the reset at 135 °C, and the clocks that double when the
raise has settled. The model's readings in it: log entries 47, 48 and 95. -/
def Obligations.LeanTriggers : Prop :=
  ∀ (s : State) (m : Master) (v : Word) (x : BitVec 16) (cause : BitVec 8),
    let full := s.modeNow = 2 ∧ s.flag F.SYS_MODE_TRANS = false ∧ (s.prof.leanActive = false ∨ s.prof.target.isSome = true)
    let begins := fun (t : State) => t.flag F.SYS_MODE_TRANS = true ∧ t.get F.SYS_MODE_TARGET = 3 ∧
      t.prof.target = some (s.profOf, true) ∧ SameMem s t
    let measured := s.mode.thermHold = false ∧ s.boot.phase ≠ .inReset ∧ s.modeNow ≠ 4 ∧ s.modeNow ≠ 0
    let lean := bitsOf v 0 8
    let crit := bitsOf v 8 8
    let lawful := 85 ≤ lean ∧ lean ≤ 120 ∧ lean + 5 ≤ crit ∧ crit ≤ 125 ∧ 1 ≤ bitsOf v 16 4
    (full → s.pclkOn = true → cause ≠ 0 → Runs (.leanEntry cause) s fun t => begins t ∧ ∀ i, i < 8 →
      bitOf (t.rd R.SYS_LEAN_CAUSE) i = (bitOf (s.rd R.SYS_LEAN_CAUSE) i || cause.getLsbD i)) ∧
    (s.modeNow = 5 → s.flag F.SYS_MODE_TRANS = true → s.get F.SYS_MODE_TARGET = 2 → s.mode.raise = none → s.pclkOn = true →
      cause ≠ 0 → Runs (.leanEntry cause) s fun t => t.modeNow = 5 ∧ t.get F.SYS_MODE_TARGET = 3 ∧ t.halved = true ∧
        t.mode.vsel = false ∧ t.mode.exitTo = some 3 ∧ SameMem s t) ∧
    (full → s.flag F.SYS_STATUS_SUPWARN = false → Runs .supwarn s fun t => begins t ∧
      t.flag F.SYS_STATUS_SUPWARN = true ∧ t.flag F.SYS_STATUS_COREPG = false ∧ t.flag F.SYS_LEAN_CAUSE_SUPPLY = true ∧
      t.flag F.SYS_EVT_STATUS_SUPWARN = true) ∧
    (s.flag F.SYS_STATUS_SUPWARN = true → Runs .supwarnClear s fun t => t.flag F.SYS_STATUS_SUPWARN = false ∧
      t.flag F.SYS_STATUS_COREPG = true ∧ OnlyRegs (fun a => a = R.SYS_STATUS) s t) ∧
    (measured → full → s.flag F.SYS_STATUS_THERMLEAN = false → x.toInt < 540 →
      4 * (s.get F.SYS_THERM_LEAN : Int) < x.toInt → x.toInt ≤ 4 * ((s.get F.SYS_THERM_CRIT : Int) - s.get F.SYS_THERM_HYST) →
      Runs (.thermalSample x) s fun t => begins t ∧ t.get F.SYS_TEMP_TEMP = x.toNat ∧
        t.flag F.SYS_STATUS_THERMLEAN = true ∧ t.flag F.SYS_LEAN_CAUSE_THERM = true ∧
        t.flag F.SYS_EVT_STATUS_THERMLEAN = true) ∧
    (measured → x.toInt ≤ 4 * ((s.get F.SYS_THERM_LEAN : Int) - s.get F.SYS_THERM_HYST) →
      x.toInt ≤ 4 * ((s.get F.SYS_THERM_CRIT : Int) - s.get F.SYS_THERM_HYST) → x.toInt < 540 →
      Runs (.thermalSample x) s fun t => t.get F.SYS_TEMP_TEMP = x.toNat ∧ t.flag F.SYS_STATUS_THERMLEAN = false ∧
        t.flag F.SYS_STATUS_THERMCRIT = false ∧ OnlyRegs (fun a => a = R.SYS_TEMP ∨ a = R.SYS_STATUS) s t) ∧
    (measured → 540 ≤ x.toInt → Runs (.thermalSample x) s fun t => t.boot.phase = .inReset ∧ t.mode.thermHold = true ∧
      t.flag F.SYS_RESET_CAUSE_THERM = true) ∧
    (s.mode.thermHold = true → Runs (.thermalSample x) s fun t =>
      t.mode.thermHold = decide (460 < x.toInt) ∧ t = { s with mode := t.mode }) ∧
    (s.pclkOn = true → lawful → Runs (.thermWrite m v) s fun t => t.get F.SYS_THERM_LEAN = lean ∧
      t.get F.SYS_THERM_CRIT = crit ∧ t.get F.SYS_THERM_HYST = bitsOf v 16 4 ∧
      OnlyRegsResp (fun a => a = R.SYS_THERM) s t) ∧
    (s.pclkOn = true → ¬ lawful → Runs (.thermWrite m v) s fun t => t = { s with resp := .none }) ∧
    (s.mode.raise = some 2 → s.modeNow = 3 → s.prof.leanActive = true → Runs .clockRaise s fun t =>
      t.halved = false ∧ t.flag F.SYS_STATUS_COREPG = true ∧ t.mode.raise = none ∧ t.modeNow = 3 ∧
      t.prof.target = some (s.profOf, false) ∧ t.prof.forMode = some 2 ∧ SameMem s t) ∧
    (s.mode.raise = some 2 → s.modeNow = 3 → s.prof.leanActive = false → s.prof.target = none →
      Runs .clockRaise s fun t => t.halved = false ∧ t.modeNow = 2 ∧ t.flag F.SYS_MODE_TRANS = false ∧
        t.rd R.SYS_LEAN_CAUSE = 0 ∧ SameMem s t) ∧
    (s.mode.raise = some 2 → s.modeNow = 5 → s.prof.leanActive = false → (∀ h, h < 4 → s.running h = false) →
      Runs .clockRaise s fun t => t.halved = false ∧ t.modeNow = 2 ∧ t.rd R.SYS_REFUGE_CAUSE = 0 ∧ SameMem s t)

/-- R205 to R207, R213 to R218: PFW_N starts HOLD entry in its first step; the delay's end stops what partners see and latches the
pins; HOLD keeps the retained banks and loses the others; the wake event of the HOLD lets it resume once both core PLLs have
locked, at SYS_RESUME_VEC and with the clocks and VSEL of the mode before, in which the resume ends. The model's readings in it:
log entries 44, 98 and 99. -/
def Obligations.HoldAndResume : Prop :=
  ∀ (s : State) (us : Word), s.wf = true →
    let md := s.mode
    let target := s.get F.SYS_MODE_TARGET
    let vec := s.rd R.SYS_RESUME_VEC
    ((s.modeNow = 2 ∨ s.modeNow = 3 ∨ s.modeNow = 5) → s.boot.phase ≠ .inReset → md.entryStep = 0 →
      s.flag F.SYS_HOLD_CTRL_PFWEN = true → Runs .pfwNLow s fun t => t.mode.pfwLow = true ∧ t.mode.entryStep = 1 ∧
        t.mode.byRequest = false ∧ t.flag F.SYS_MODE_TRANS = true ∧ t.get F.SYS_MODE_TARGET = 4 ∧
        t.flag F.SYS_EVT_STATUS_PFW = true ∧ ∀ h, h < 4 → (t.head h).phase = .stopped) ∧
    ((s.modeNow = 2 ∨ s.modeNow = 3 ∨ s.modeNow = 5) → s.boot.phase ≠ .inReset → md.entryStep = 0 →
      s.flag F.SYS_HOLD_CTRL_PFWEN = false → Runs .pfwNLow s fun t => t.flag F.SYS_EVT_STATUS_PFW = true ∧
        t = { s with regs := t.regs, mode := t.mode } ∧ t.mode = { md with pfwLow := true } ∧
        SameRegs (fun a => a = R.SYS_EVT_STATUS) s t) ∧
    (s.boot.phase ≠ .inReset → s.modeNow ≠ 0 → Runs .pfwNHigh s fun t => t.mode.pfwLow = false ∧ t = { s with mode := t.mode } ∧
      t.mode.wakePending = (md.wakePending || (md.byRequest && md.pfwSeen))) ∧
    (md.entryStep = 1 → Runs .holdDelayExpiry s fun t => t.mode.entryStep = 4 ∧ t.pins.latch.isSome = true ∧
      t.flag F.BLIT_STATUS_BUSY = false ∧ t.flag F.SCRUB_STATUS_BUSY = false ∧ t.flag F.PCIE_STATUS_LINKUP = false ∧
      (∀ n, n < 2 → t.flag (F.CAM_STATUS_RUN n) = false) ∧ (∀ n, n < 8 → t.flag (F.DMA_CH_STATUS_BUSY n) = false) ∧
      ∀ n, n < 16 → t.flag (F.STORE_OWNER_BUSY n) = false) ∧
    (md.entryStep = 4 → target = 4 → md.emul = none → md.resumeStep = 0 → Runs .holdEntryComplete s fun t => t.modeNow = 4 ∧
      t.mode.entryStep = 0 ∧ t.flag F.SYS_MODE_TRANS = false ∧ t.pclkOn = false ∧
      t.flag F.SYS_CLK_STATUS_ECLKLOCK = false ∧
      (∀ n k, n < 16 → inBank n k = true → (natBit (s.get F.SYS_HOLD_RET_RET) n || s.flag (F.STORE_OWNER_LOCK n)) = true →
        t.rawByte k = s.rawByte k) ∧
      (∀ n k, n < 16 → inBank n k = true → (natBit (s.get F.SYS_HOLD_RET_RET) n || s.flag (F.STORE_OWNER_LOCK n)) = false →
        t.inUndef k = true)) ∧
    (md.entryStep = 4 → target = 0 → md.emul = none → md.wakePending = false → Runs .holdEntryComplete s fun t =>
      t.modeNow = 0 ∧ t.pins.latch = none ∧ t.pclkOn = false ∧ t.flag F.SYS_CLK_STATUS_REFOK = false ∧ SameMem s t) ∧
    (s.modeNow = 4 → md.entryStep = 0 → md.resumeStep = 0 → s.holdEnds = true → vec ≠ 0 → s.boot.eclkFail = false →
      s.boot.pclkFail = false → s.tap.run = none → Runs .holdResume s fun t => t.halved = (md.prev != 2) ∧
      t.mode.vsel = (md.prev == 2) ∧
      t.mode.resumeStep = 3 ∧ t.cc.pc = vec ∧ t.cc.sp = s.rd R.SYS_RESUME_SP ∧ t.cc.status = 2 ∧ t.cc.started = true ∧
      t.pins.latch = none ∧ t.flag F.SYS_MODE_TRANS = true ∧ t.get F.SYS_MODE_TARGET = md.prev % 8 ∧
      ∀ k, inStore k = true → t.rawByte k = s.rawByte k) ∧
    (s.modeNow = 4 → md.entryStep = 0 → md.resumeStep = 0 → s.holdEnds = true → vec = 0 → Runs .holdResume s fun t =>
      t.boot.phase = .inReset ∧ t.flag F.SYS_RESET_CAUSE_PFWBOOT = true) ∧
    (s.holdEnds = false → Runs .holdResume s fun t => t = s) ∧
    (vec ≠ 0 → (s.boot.eclkFail = true ∨ s.boot.pclkFail = true) → Runs .holdResume s fun t => t = s) ∧
    (s.modeNow = 4 → md.resumeStep ≠ 0 → s.prof.target = none → (md.prev = 2 ∨ md.prev = 3 ∨ md.prev = 5) →
      (md.prev = 3 → s.prof.leanActive = true) → s.leanActive = false → Runs (.resumeComplete us) s fun t =>
        (md.prev = 3 → t.halved = true) ∧ t.modeNow = md.prev ∧ t.mode.resumeStep = 0 ∧
        t.flag F.SYS_MODE_TRANS = false ∧ t.flag F.SYS_EVT_STATUS_RESUMED = true ∧ t.rd R.SYS_RESUME_TIME = us ∧
        SameMem s t)

/-- R213, R222, R224 to R226, R382: the wake sources, in DORMANT and in a requested HOLD; the resets, their causes, and what
each of them keeps. The model's readings in it: log entries 11, 96, 106, 108 and 110. -/
def Obligations.WakesAndResets : Prop :=
  ∀ (s : State) (m : Master) (v : Word) (i : BitVec 2) (lv : Bool) (ns : Nat),
    let sleeps := s.modeNow = 0 ∧ s.mode.entryStep = 0 ∧ s.mode.wakePending = false
    let rests := s.modeNow = 4 ∧ s.mode.entryStep = 0 ∧ s.mode.byRequest = true ∧ s.mode.resumeStep = 0 ∧
      s.mode.wakePending = false
    let sources : List (Instr × Bool × Word) :=
      [(.wakeTimerExpiry, s.flag F.SYS_WAKE_CTRL_TIMEN, 0x10),
       (.wakePin ⟨i, lv⟩, natBit (s.get F.SYS_WAKE_CTRL_PINEN) i.toNat && (lv == natBit (s.get F.SYS_WAKE_CTRL_PINPOL) i.toNat),
        BitVec.ofNat 32 (2 ^ i.toNat)),
       (.pragusActivityWake, s.flag F.SYS_WAKE_CTRL_PRGEN, 0x100)]
    let cold := fun (t : State) (cause : Fld) => t.boot.phase = .inReset ∧ t.flag cause = true ∧ t.fuses = s.fuses ∧
      t.flash = s.flash ∧ t.pending = s.pending ∧ t.heads = [] ∧ t.units = [] ∧ t.eng = [] ∧ t.mem = [] ∧
      (∀ a, keptByReset a = false → a ≠ R.CFG_FUSE → t.rd a = regReset a) ∧
      (∀ a, keptByReset a = true → a ≠ R.SYS_RESET_CAUSE → t.rd a = s.rd a)
    let pulse := (Instr.resetNAssert ns)
    let s0 := { s with resp := .none }
    (∀ c en w, (c, en, w) ∈ sources →
      (sleeps → en = true → Runs c s fun t => t.boot.phase = .inReset ∧ t.rd R.SYS_WAKE_SRC = w ∧
        t.flag F.SYS_RESET_CAUSE_WAKE = true ∧ t.fuses = s.fuses ∧ t.mem = [] ∧
        ∀ a, keptByReset a = false → a ≠ R.CFG_FUSE → t.rd a = regReset a) ∧
      (rests → en = true → Runs c s fun t => t.rd R.SYS_WAKE_SRC = w ∧ t.mode = { s.mode with wakePending := true } ∧
        t = { s with regs := t.regs, mode := t.mode } ∧ SameRegs (fun a => a = R.SYS_WAKE_SRC) s t) ∧
      (en = false → Runs c s fun t => t = s)) ∧
    (Runs .powerOnReset s fun t => t.boot.phase = .inReset ∧ t.fuses = s.fuses ∧ t.flash = s.flash ∧ t.mem = [] ∧
      ∀ a, a ≠ R.CFG_FUSE → t.rd a = regReset a) ∧
    (1000 ≤ ns → Runs pulse s fun t => cold t F.SYS_RESET_CAUSE_PIN ∧ t.pins.resetLow = true) ∧
    (ns < 100 → Runs pulse s fun t => t = s) ∧
    (s.pclkOn = true → bitsOf v 24 8 = 0xA5 → bitOf v 0 = true → Runs (.softwareReset m v) s fun t =>
      cold t F.SYS_RESET_CAUSE_SOFT) ∧
    (s.pclkOn = true → ¬ (bitsOf v 24 8 = 0xA5 ∧ bitOf v 0 = true) → Runs (.softwareReset m v) s fun t => t = s0) ∧
    (s.pclkOn = true → s.tap.run = none → bitOf v 31 = s.flag F.DBG_CTRL_ATTACH → Runs (.sysrst v) s fun t =>
      t.boot.phase = .inReset ∧ t.flag F.SYS_RESET_CAUSE_DBGRST = true ∧ t.fuses = s.fuses ∧ t.units = [] ∧ t.mem = [] ∧
      (t.flag F.SYS_RESET_CAUSE_DBG_ATTACHED = true ∨ bitOf v 31 = false))

/-! ### Store, Sirocco, DMA, cameras -/

namespace Sys2Proof.Machine

/-- No context is held inside an instruction, and no access of a block or a head's fetch waits. -/
def State.NoneHeld (s : State) : Prop :=
  s.cc.stalled = none ∧ (∀ e, (s.engine e).stalled = none) ∧ s.waiting = [] ∧
  ∀ h l, h < 4 → l < 8 → s.fetchHeld h l = false

end Sys2Proof.Machine

/-- R228 to R231, R235: a hand-over gives the bank its new owner and BUSY, and clears reservations on it; it is ignored with OWNREF
for a busy, locked or powered-down bank, and a write of the same code does nothing; it ends with HANDOVER, at its limit with HOTO
too, when a read of the old owner ends with its bus error; a bank leaves ON only without an owner, loses its contents when OFF, and
comes back through 40 µs. The model's readings in it: log entries 53, 54 and 105. -/
def Obligations.StoreBanks : Prop :=
  ∀ (s : State) (m : Master) (n : BankNo) (v : Word),
    let code := v.toNat % 64
    let busy := s.flag (F.STORE_OWNER_BUSY n)
    let locked := s.flag (F.STORE_OWNER_LOCK n)
    let owner := s.get (F.STORE_OWNER_OWNER n)
    let pwr := fun (t : State) => bitsOf (t.rd R.STORE_PWR) (2 * n) 2
    let coming := fun (t : State) => natBit (t.get F.STORE_PWR_STATUS_COMING) n
    let only := fun (k : Nat) => BitVec.ofNat 32 (k * 4 ^ n.val) ||| (s.rd R.STORE_PWR &&& ~~~(BitVec.ofNat 32 (3 * 4 ^ n.val)))
    let setTo := fun (k : Nat) => Instr.storePwrWrite m (only k)
    (s.pclkOn = true → busy = false → locked = false → s.bankOn n = true → (code ≤ 0x16 ∨ 0x18 ≤ code ∧ code ≤ 0x1C ∨
      code = 0x3F) →
      code ≠ owner → Runs (.ownerHandover m n v) s fun t => t.get (F.STORE_OWNER_OWNER n) = code ∧
        t.get (F.STORE_OWNER_PREV n) = owner ∧ t.flag (F.STORE_OWNER_BUSY n) = true ∧ SameMem s t ∧
        SameRegs (fun a => a = R.STORE_OWNER n) s t ∧
        (∀ a, t.cc.resv = some a → inBank n a = false) ∧ (∀ e a, (t.engine e).resv = some a → inBank n a = false)) ∧
    (s.pclkOn = true → (busy = true ∨ locked = true ∨ s.bankOn n = false) → Runs (.ownerHandover m n v) s fun t =>
      t.flag F.STORE_STATUS_OWNREF = true ∧ OnlyRegsResp (fun a => a = R.STORE_STATUS) s t) ∧
    (s.pclkOn = true → busy = false → locked = false → s.bankOn n = true → code = owner →
      (code ≤ 0x16 ∨ 0x18 ≤ code ∧ code ≤ 0x1C ∨ code = 0x3F) → Runs (.ownerHandover m n v) s fun t =>
        t = { s with resp := .none }) ∧
    (busy = true → s.NoneHeld → Runs (.handoverComplete n) s fun t => t.flag (F.STORE_OWNER_BUSY n) = false ∧
      t.get (F.STORE_OWNER_OWNER n) = owner ∧ t.flag F.STORE_STATUS_HANDOVER = true ∧
      OnlyRegs (fun a => a = R.STORE_OWNER n ∨ a = R.STORE_STATUS) s t ∧
      t.flag F.STORE_STATUS_HOTO = s.flag F.STORE_STATUS_HOTO) ∧
    (busy = true → s.flag F.STORE_HO_TIMEOUT_LIMIT = true → s.NoneHeld →
      (Runs (.handoverTimeout ⟨n, []⟩) s fun t =>
        t.flag (F.STORE_OWNER_BUSY n) = false ∧ t.flag F.STORE_STATUS_HOTO = true ∧ t.flag F.STORE_STATUS_HANDOVER = true ∧
        OnlyRegs (fun a => a = R.STORE_OWNER n ∨ a = R.STORE_STATUS) s t) ∧
      (∀ ch : ChanNo, covers (s.get (F.STORE_OWNER_PREV n)) 0x11 = true → s.dmaRuns ch = true →
        Runs (.handoverTimeout ⟨n, [.dma ch]⟩) s fun t => t.flag (F.STORE_OWNER_BUSY n) = false ∧
          t.flag F.STORE_STATUS_HOTO = true ∧ t.flag (F.DMA_CH_STATUS_BUSY ch) = false ∧
          t.flag (F.DMA_CH_STATUS_ERR ch) = true ∧ t.get (F.DMA_CH_STATUS_CODE ch) = 4 ∧ SameMem s t)) ∧
    (∀ reads, s.flag F.STORE_HO_TIMEOUT_LIMIT = false → Runs (.handoverTimeout ⟨n, reads⟩) s fun t => t = s) ∧
    (s.pclkOn = true → pwr s = 0 → coming s = false → owner = 0x3F → locked = false → busy = false →
      (Runs (setTo 1) s fun t => pwr t = 1 ∧ OnlyRegsResp (fun a => a = R.STORE_PWR) s t) ∧
      (Runs (setTo 2) s fun t => pwr t = 2 ∧ SameRegs (fun a => a = R.STORE_PWR) s t ∧
        (∀ k, inBank n k = true → t.inUndef k = true) ∧ ∀ k, inBank n k = false → t.rawByte k = s.rawByte k)) ∧
    (s.pclkOn = true → pwr s = 0 → coming s = false → (owner ≠ 0x3F ∨ locked = true ∨ busy = true) → ∀ k, k = 1 ∨ k = 2 →
      Runs (setTo k) s fun t => pwr t = 0 ∧ t.flag F.STORE_STATUS_PWRREF = true ∧
        OnlyRegsResp (fun a => a = R.STORE_STATUS) s t) ∧
    (s.pclkOn = true → (pwr s = 1 ∨ pwr s = 2) → coming s = false → locked = false → Runs (setTo 0) s fun t =>
      pwr t = 0 ∧ coming t = true ∧ OnlyRegsResp (fun a => a = R.STORE_PWR ∨ a = R.STORE_PWR_STATUS) s t) ∧
    (coming s = true → Runs (.bankPowerOnDone n) s fun t => coming t = false ∧ t.flag F.STORE_STATUS_PWRDONE = true ∧
      OnlyRegs (fun a => a = R.STORE_PWR_STATUS ∨ a = R.STORE_STATUS) s t)

/-- R241: a write to STORE_ECC_INJ arms an injection; the next owner-port write to the bank stores the check bits of its lowest
byte exclusive-OR MASK and clears INJ; in a memory without a failing cell (R244) one bit of MASK reads as a correctable error, with
the data that was written, two bits as an uncorrectable one. -/
def Obligations.ErrorInjection : Prop :=
  ∀ (s : State) (m : Master) (v : Word) (k : Nat) (bs : List Byte),
    (s.pclkOn = true → bitOf v 31 = true → Runs (.eccInjectionArm m v) s fun t => t.flag F.STORE_ECC_INJ_INJ = true ∧
      t.get F.STORE_ECC_INJ_BANK = v.toNat % 16 ∧ t.get F.STORE_ECC_INJ_MASK = v.toNat / 256 % 32 ∧
      OnlyRegsResp (fun a => a = R.STORE_ECC_INJ) s t) ∧
    (s.boot.cells = [] → s.flag F.STORE_ECC_INJ_INJ = true → inStore k = true → bankOf k = s.get F.STORE_ECC_INJ_BANK → bs ≠ [] →
      let t := s.storeBytes k bs
      t.flag F.STORE_ECC_INJ_INJ = false ∧
      (∀ d, bs.head? = some d → t.eccByte k = judge d (checkBits d ^^^ BitVec.ofNat 5 (s.get F.STORE_ECC_INJ_MASK))) ∧
      (∀ j, k < j → j < k + bs.length → (t.eccByte j).2 = .clean)) ∧
    (∀ (d : Byte) (i j : Fin 5), judge d (checkBits d ^^^ BitVec.ofNat 5 (2 ^ i.val)) = (d, .corr) ∧
      (i ≠ j → (judge d (checkBits d ^^^ BitVec.ofNat 5 (2 ^ i.val + 2 ^ j.val))).2 = .uncorr))

/-- R242, R243, R245: the scrubber starts over a lawful range and is refused otherwise; over sound words it counts each and finds
none; it corrects a byte in place with FIX; STOP ends it early; the march takes a bank without an owner, leaves it zero in mode 0
and reports what failed, with the address of the lowest row that did. The model's readings in it: log entries 55 and 56. -/
def Obligations.ScrubAndMarch : Prop :=
  ∀ (s : State) (m : Master) (v : Word) (fails : List Nat),
    let a := (s.rd R.SCRUB_START).toNat
    let b := (s.rd R.SCRUB_END).toNat
    let lawful := inStore a = true ∧ inStore b = true ∧ a ≤ b ∧ a % 4 = 0 ∧ b % 4 = 0
    let scrubs := s.flag F.SCRUB_STATUS_BUSY
    let pos := s.store.scrubPos
    let left := (s.store.scrubTo + 4 - pos) / 4
    let scrubRegs := fun (x : Nat) => x = R.SCRUB_CTRL ∨ x = R.SCRUB_STATUS ∨ x = R.SCRUB_READ ∨ x = R.SCRUB_ERRS ∨
      x = R.SCRUB_FIRST ∨ x = R.SCRUB_LAST ∨ x = R.STORE_STATUS
    let sound := fun (n : Nat) => (∀ j, j < n → s.bankOn (bankOf (pos + 4 * j)) = true ∧
      (s.eccBytes (pos + 4 * j) 4).2 = .clean ∧ ∀ i, i < 4 → s.inUndef (pos + 4 * j + i) = false)
    let bank := v.toNat % 16
    let free := s.flag F.STORE_MARCH_STATUS_BUSY = false ∧ s.bankOn bank = true ∧
      s.flag (F.STORE_OWNER_BUSY bank) = false ∧ s.get (F.STORE_OWNER_OWNER bank) = 0x3F
    let n := s.store.marchBank
    (s.pclkOn = true → bitOf v 2 = false → scrubs = false → lawful → Runs (.scrubGo m v) s fun t =>
      t.flag F.SCRUB_STATUS_BUSY = true ∧ t.store.scrubPos = a ∧ t.store.scrubTo = b ∧ t.rd R.SCRUB_READ = 0 ∧
        t.rd R.SCRUB_ERRS = 0 ∧ SameMem s t ∧
      SameRegs scrubRegs s t) ∧
    (s.pclkOn = true → bitOf v 2 = false → (scrubs = true ∨ ¬ lawful) → Runs (.scrubGo m v) s fun t =>
      t.flag F.SCRUB_STATUS_REFUSED = true ∧ t.flag F.SCRUB_STATUS_BUSY = scrubs ∧
      OnlyRegsResp (fun x => x = R.SCRUB_STATUS ∨ x = R.SCRUB_CTRL) s t) ∧
    (scrubs = true → sound left → Runs .scrubDone s fun t => t.flag F.SCRUB_STATUS_BUSY = false ∧
      t.flag F.SCRUB_STATUS_DONE = true ∧ t.flag F.STORE_STATUS_SCRUBDONE = true ∧
      t.rd R.SCRUB_READ = s.rd R.SCRUB_READ + BitVec.ofNat 32 left ∧ t.rd R.SCRUB_ERRS = s.rd R.SCRUB_ERRS ∧ SameMem s t ∧
      SameRegs scrubRegs s t) ∧
    (s.pclkOn = true → scrubs = true → sound (min left 2) → Runs (.scrubStop m v) s fun t =>
      t.flag F.SCRUB_STATUS_BUSY = false ∧ t.flag F.SCRUB_STATUS_DONE = true ∧ t.flag F.SCRUB_STATUS_ABORTED = true ∧
      SameMem s t ∧ SameRegs scrubRegs s t) ∧
    (s.boot.cells = [] → scrubs = true → s.flag F.SCRUB_CTRL_FIX = true → 0 < left → s.bankOn (bankOf pos) = true →
      (∀ i, i < 4 → s.inUndef (pos + i) = false) → (s.eccBytes pos 4).2 = .corr →
      (Runs (.scrubRewrite false) s fun t => t.store.scrubPos = pos + 4 ∧
        (∀ i, i < 4 → t.eccByte (pos + i) = ((s.eccByte (pos + i)).1, .clean)) ∧
        (∀ k, (k < pos ∨ pos + 4 ≤ k) → t.rawByte k = s.rawByte k) ∧ SameRegs scrubRegs s t) ∧
      (Runs (.scrubRewrite true) s fun t => t.store.scrubPos = pos + 4 ∧ SameMem s t ∧ t.ecc = s.ecc ∧ SameRegs scrubRegs s t)) ∧
    (s.pclkOn = true → bitOf v 8 = false → free → s.flag (F.STORE_OWNER_LOCK bank) = false → Runs (.marchGo m v) s fun t =>
      t.flag F.STORE_MARCH_STATUS_BUSY = true ∧ t.store.marchBank = bank ∧ t.store.marchKeep = false ∧
      t.get F.STORE_MARCH_STATUS_FAILCNT = 0 ∧ SameMem s t ∧
      SameRegs (fun x => x = R.STORE_MARCH_CTRL ∨ x = R.STORE_MARCH_STATUS) s t) ∧
    (s.pclkOn = true → (¬ free ∨ bitOf v 8 = false ∧ s.flag (F.STORE_OWNER_LOCK bank) = true) →
      Runs (.marchGo m v) s fun t => t.flag F.STORE_MARCH_STATUS_REFUSED = true ∧ t.store = s.store ∧
        OnlyRegsResp (fun x => x = R.STORE_MARCH_CTRL ∨ x = R.STORE_MARCH_STATUS) s t) ∧
    (s.flag F.STORE_MARCH_STATUS_BUSY = true → s.store.marchKeep = false →
      (∀ p, p ∈ s.undef → inBank n p.1 = true ∨ p.2 ≤ bankBase n ∨ bankBase (n + 1) ≤ p.1) → Runs (.marchDone fails) s fun t =>
      t.flag F.STORE_MARCH_STATUS_BUSY = false ∧ t.flag F.STORE_MARCH_STATUS_DONE = true ∧
      t.flag F.STORE_STATUS_MARCHDONE = true ∧
      (∀ k, inBank n k = true → k < 0x10800000 → t.rawByte k = 0 ∧ (s.boot.cells = [] → t.eccByte k = (0, .clean))) ∧
      (∀ k, inBank n k = false → t.rawByte k = s.rawByte k) ∧
      ((∃ x, x ∈ fails ∧ inBank n x = true) → t.flag F.STORE_MARCH_STATUS_FAIL = true) ∧
      (∀ x, x ∈ fails → inBank n x = true → (t.rd R.STORE_MARCH_ADDR).toNat ≤ x ∧
        ∃ y, y ∈ fails ∧ inBank n y = true ∧ (t.rd R.STORE_MARCH_ADDR).toNat = y / 8 * 8))

/-- R247, R248, R257, R258: GO begins the list at BLIT_LIST, or is refused while one runs; NOP goes on to the next command, END
ends the list with DONE; an invalid OP stops it with code 1; STOP ends it with code 0xB. The model's readings in it: log
entry 58. -/
def Obligations.SiroccoList : Prop :=
  ∀ (s : State) (m : Master) (v : Word) (ws : List Word),
    let busy := s.flag F.BLIT_STATUS_BUSY
    let cur := s.rd R.BLIT_CUR
    let reads := s.blitRuns = true ∧ s.waiting.any isBlit = false ∧ s.blit.paced = none ∧ s.blitWords cur.toNat = ((ws, 0), s)
    (s.pclkOn = true → busy = false → Runs (.blitGo m v) s fun t =>
      t.flag F.BLIT_STATUS_BUSY = true ∧ t.rd R.BLIT_CUR = s.rd R.BLIT_LIST ∧ t.blit = {} ∧ SameMem s t ∧
      SameRegs (fun a => a = R.BLIT_STATUS ∨ a = R.BLIT_CUR) s t) ∧
    (s.pclkOn = true → bitOf v 1 = false → busy = true → Runs (.blitGo m v) s fun t =>
      t.flag F.BLIT_STATUS_REFUSED = true ∧ t.flag F.BLIT_STATUS_BUSY = true ∧ OnlyRegsResp (fun a => a = R.BLIT_STATUS) s t) ∧
    (s.pclkOn = true → busy = true → Runs (.blitStop m v) s fun t =>
      t.flag F.BLIT_STATUS_BUSY = false ∧ t.flag F.BLIT_STATUS_ERR = true ∧ t.get F.BLIT_ERR_INFO_CODE = 0xB ∧
      t.rd R.BLIT_ERR_ADDR = cur ∧ t.blit.paced = none ∧ SameMem s t ∧
      SameRegs (fun a => a = R.BLIT_STATUS ∨ a = R.BLIT_ERR_INFO ∨ a = R.BLIT_ERR_ADDR) s t) ∧
    (reads → cmdOp ws = 1 → Runs .blitNop s fun t => t.rd R.BLIT_CUR = cur + 32 ∧ t.blit.index = s.blit.index + 1 ∧
      SameMem s t ∧ t.flag F.BLIT_STATUS_BUSY = true ∧ SameRegs (fun a => a = R.BLIT_STATUS ∨ a = R.BLIT_CUR) s t) ∧
    (reads → cmdOp ws = 0 → Runs .blitEnd s fun t => t.flag F.BLIT_STATUS_DONE = true ∧ t.flag F.BLIT_STATUS_BUSY = false ∧
      t.rd R.BLIT_CUR = cur ∧ SameMem s t ∧ ∀ h l, h < 4 → l < 8 → (∃ sl, (s.layer h l).fence = some { src := 3, slot := sl }) →
        t.flag (F.HEAD_L_FLIPSTAT_SIGNALLED h l) = true) ∧
    (reads → 7 ≤ cmdOp ws → Runs .blitNop s fun t => t.flag F.BLIT_STATUS_ERR = true ∧ t.get F.BLIT_ERR_INFO_CODE = 1 ∧
      t.rd R.BLIT_ERR_ADDR = cur ∧ t.flag F.BLIT_STATUS_BUSY = false ∧ SameMem s t)

/-- R230, R249 to R256: a command that fails a check writes nothing and stops the list with the check's code; one that passes
writes, for a single ARGB8888 pixel, FILL COLOR, COPY the source, KEY the source where it is not the key, BLEND by the effective
alpha, CONVERT the source in 8-bit form; one whose write a hand-over holds waits; a paced row waits for the beam, runs in its
range, and the last one ends the command. The model's readings in it: log entries 58 and 131. -/
def Obligations.SiroccoPixels : Prop :=
  ∀ (s : State) (ws sw dw : List Word) (w d : Word) (key : Nat),
    let cur := s.rd R.BLIT_CUR
    let reads := s.blitRuns = true ∧ s.waiting.any isBlit = false ∧ s.blit.paced = none ∧
      s.blitWords cur.toNat = ((ws, 0), s) ∧ cmdReservedOk ws = true ∧
      (cmdWord ws 1).toNat % 32 = 0 ∧ (cmdWord ws 2).toNat % 32 = 0 ∧
      (cmdOp ws ≠ 2 → s.blitWords (cmdWord ws 1).toNat = ((sw, 0), s)) ∧ s.blitWords (cmdWord ws 2).toNat = ((dw, 0), s)
    let sf := if cmdOp ws = 2 then surfOf [] else surfOf sw
    let df := surfOf dw
    let addr := df.base + cmdDY ws * df.stride + cmdDX ws * 4
    let pixel := cmdW ws = 1 ∧ cmdH ws = 1 ∧ cmdRot ws = 0 ∧ cmdMirX ws = false ∧ cmdMirY ws = false ∧ cmdPace ws = false ∧
      df.fmt = 0 ∧ s.blitCheck ws sf df = 0
    let one := pixel ∧ s.blockPort 0x12 addr 4 = .ok key
    let source := sf.fmt = 0 ∧ s.blitRead sf (cmdSX ws) (cmdSY ws) = ((w, 0, 0), s)
    let wrote := fun (c : Instr) (p : Word) => Runs c s fun t =>
      (∀ j, j < 4 → t.rawByte (key + j) = BitVec.ofNat 8 (p.toNat / 256 ^ j)) ∧
      (∀ k, (k < key ∨ key + 4 ≤ k) → t.rawByte k = s.rawByte k) ∧ t.rd R.BLIT_CUR = cur + 32 ∧
      t.flag F.BLIT_STATUS_BUSY = true ∧
      SameRegs (fun a => a = R.BLIT_CUR ∨ a = R.BLIT_STATUS ∨ a = R.BLIT_WROW ∨ a = R.STORE_ECC_INJ) s t
    let g := (cmdColor ws).toNat % 256
    let al := d255 (pxA w * g)
    let mix := fun (x y : Nat) => d255 (x * al + y * (255 - al))
    (reads → one → cmdOp ws = 2 → wrote .blitFill (cmdColor ws)) ∧
    (∀ b, reads → pixel → s.blockPort 0x12 addr 4 = .held b → s.blocked = false → cmdOp ws = 2 → Runs .blitFill s fun t =>
      t = { s with waiting := s.waiting ++ [.blit 2] }) ∧
    (reads → one → source → cmdOp ws = 3 → wrote .blitCopy w) ∧
    (reads → one → source → cmdOp ws = 4 → w.toNat % 2 ^ 24 ≠ (cmdColor ws).toNat % 2 ^ 24 → wrote .blitKey w) ∧
    (reads → one → source → cmdOp ws = 4 → w.toNat % 2 ^ 24 = (cmdColor ws).toNat % 2 ^ 24 → Runs .blitKey s fun t =>
      SameMem s t ∧ t.rd R.BLIT_CUR = cur + 32) ∧
    (reads → one → source → cmdOp ws = 5 → sf.premul = false → s.blitRead df (cmdDX ws) (cmdDY ws) = ((d, 0, 0), s) →
      wrote .blitBlend (argb (al + d255 (pxA d * (255 - al))) (mix (pxR w) (pxR d)) (mix (pxG w) (pxG d)) (mix (pxB w) (pxB d)))) ∧
    (reads → one → source → cmdOp ws = 6 → wrote .blitConvert w) ∧
    (∀ c, (c, cmdOp ws) ∈ [(Instr.blitFill, 2), (.blitCopy, 3), (.blitKey, 4), (.blitBlend, 5), (.blitConvert, 6)] → reads →
      s.blitCheck ws sf df ≠ 0 → Runs c s fun t => SameMem s t ∧ t.flag F.BLIT_STATUS_BUSY = false ∧
        t.flag F.BLIT_STATUS_ERR = true ∧ t.get F.BLIT_ERR_INFO_CODE = s.blitCheck ws sf df ∧ t.rd R.BLIT_ERR_ADDR = cur) ∧
    (∀ p, s.blit.paced = some p → s.blitRuns = true → s.waiting.any isBlit = false → cmdOp p.words = 2 → cmdRot p.words = 0 →
      cmdW p.words = 1 →
      cmdMirX p.words = false → cmdMirY p.words = false → p.dst.fmt = 0 → p.row < cmdH p.words →
      let row := cmdDY p.words + p.row
      (s.paceIn row = false → Runs .pacedRowStart s fun t => t.flag F.BLIT_STATUS_PACEWAIT = true ∧ t.blit = s.blit ∧
        OnlyRegs (fun a => a = R.BLIT_STATUS) s t) ∧
      (s.paceIn row = true → s.blockPort 0x12 (p.dst.base + row * p.dst.stride + cmdDX p.words * 4) 4 = .ok key →
        Runs .pacedRowStart s fun t => t.rawWord key = cmdColor p.words ∧
          (∀ k, (k < key ∨ key + 4 ≤ k) → t.rawByte k = s.rawByte k) ∧
          (if p.row + 1 < cmdH p.words then t.blit.paced = some { p with row := p.row + 1 } ∧ t.rd R.BLIT_CUR = cur
            else t.blit.paced = none ∧ t.rd R.BLIT_CUR = cur + 32)))

/-- R260 to R267: GO and ARM start or arm a channel whose settings pass, name the check that fails, and are refused, as is a write
to another register, on a busy or armed one; the bursts of the channels that work take turns; a burst moves elements with their
bytes swapped and shows the next position; the last move is followed by DONE, and by a new arming with REARM; STOP ends it with
code 6. The model's readings in it: log entry 59. -/
def Obligations.DmaChannels : Prop :=
  ∀ (s : State) (m : Master) (n : ChanNo) (v : Word) (bs : List Byte) (key : Nat),
    let busy := s.flag (F.DMA_CH_STATUS_BUSY n)
    let armed := s.flag (F.DMA_CH_STATUS_ARMED n)
    let written := fun (w : Word) => { s with resp := .none }.maskWrite (R.DMA_CH_CTRL n) w
    let go := (v ||| 0x80000000) &&& 0x9FFFFFFF
    let arm := (v ||| 0x20000000) &&& 0x3FFFFFFF
    let statusOnly := fun (t : State) => OnlyRegsResp (fun a => a = R.DMA_CH_STATUS n) s t
    let x := s.dmaSt n
    let a := s.dmaAddr n true x
    let b := s.dmaAddr n false x
    let e := 2 ^ s.get (F.DMA_CH_CTRL_ESIZE n)
    let next := s.dmaAdvance n x
    (s.pclkOn = true → busy = false → armed = false → (written go).dmaCheck n = 0 → Runs (.dmaGo m n v) s fun t =>
      t.flag (F.DMA_CH_STATUS_BUSY n) = true ∧ t.dmaSt n = {} ∧ t.get (F.DMA_CH_POS01_K0 n) = 0 ∧
      t.get (F.DMA_CH_POS01_K1 n) = 0 ∧ t.get (F.DMA_CH_POS2_K2 n) = 0 ∧ SameMem s t) ∧
    (s.pclkOn = true → busy = false → armed = false → (written go).dmaCheck n ≠ 0 → Runs (.dmaGo m n v) s fun t =>
      t.flag (F.DMA_CH_STATUS_BUSY n) = false ∧ t.flag (F.DMA_CH_STATUS_ERR n) = true ∧
      t.get (F.DMA_CH_STATUS_CODE n) = (written go).dmaCheck n) ∧
    (s.pclkOn = true → busy = false → armed = false → (written arm).dmaCheck n = 0 →
      ((written arm).get (F.DMA_CH_CTRL_TRIG n) < 40 → Runs (.dmaArm m n v) s fun t =>
        t.flag (F.DMA_CH_STATUS_ARMED n) = true ∧ t.flag (F.DMA_CH_STATUS_BUSY n) = false ∧ SameMem s t) ∧
      (40 ≤ (written arm).get (F.DMA_CH_CTRL_TRIG n) → Runs (.dmaArm m n v) s fun t =>
        t.flag (F.DMA_CH_STATUS_ARMED n) = false ∧ t.get (F.DMA_CH_STATUS_CODE n) = 7)) ∧
    (s.pclkOn = true → (busy = true ∨ armed = true) → ∀ c, c = Instr.dmaGo m n v ∨ c = .dmaArm m n v →
      Runs c s fun t => t.flag (F.DMA_CH_STATUS_REFUSED n) = true ∧ t.dma = s.dma ∧ statusOnly t) ∧
    (s.pclkOn = true → busy = true → x.moved = false → Runs (.dmaStop m n v) s fun t =>
      t.flag (F.DMA_CH_STATUS_BUSY n) = false ∧ t.flag (F.DMA_CH_STATUS_ARMED n) = false ∧
      t.get (F.DMA_CH_STATUS_CODE n) = 6 ∧ t.flag (F.DMA_CH_STATUS_ERR n) = true ∧ statusOnly t) ∧
    (s.pclkOn = true → busy = false → armed = true → Runs (.dmaStop m n v) s fun t =>
      t.flag (F.DMA_CH_STATUS_ARMED n) = false ∧ statusOnly t) ∧
    (s.dmaTurn n = true → s.dmaBurstLen n = 1 → s.mapRead .dma 3 0x11 1 a e = (some (bs, .clean), s) →
      s.mapWhere .dma b e true = .mem key → bs.length = e → Runs (.dmaBurst n) s fun t =>
        (∀ j, t.rawByte j = if key ≤ j ∧ j < key + e then (dmaSwap (s.get (F.DMA_CH_CTRL_SWAP n)) bs).getD (j - key) 0
          else s.rawByte j) ∧
        t.dmaSt n = next ∧ t.get (F.DMA_CH_POS01_K0 n) = next.k0 % 65536 ∧ t.dmaLast = n.val ∧
        SameRegs (fun r => r = R.DMA_CH_POS01 n ∨ r = R.DMA_CH_POS2 n ∨ r = R.STORE_ECC_INJ) s t) ∧
    (s.dmaTurn n = false → Runs (.dmaBurst n) s fun t => t = s) ∧
    (s.dmaTurn n = true ↔ s.dmaRuns n = true ∧
      ∀ o : ChanNo, s.dmaRuns o = true → (n.val + 7 - s.dmaLast % 8) % 8 ≤ (o.val + 7 - s.dmaLast % 8) % 8) ∧
    (s.pclkOn = true → (busy = true ∨ armed = true) → Runs (.registerWrite m (BitVec.ofNat 32 (R.DMA_CH_STATUS n)) v) s fun t =>
      t.flag (F.DMA_CH_STATUS_REFUSED n) = true ∧ statusOnly t) ∧
    (busy = true → x.moved = true → Runs (.dmaComplete n) s fun t => t.flag (F.DMA_CH_STATUS_BUSY n) = false ∧
      t.flag (F.DMA_CH_STATUS_DONE n) = true ∧ SameMem s t ∧
      t.flag (F.DMA_CH_STATUS_ARMED n) = (s.flag (F.DMA_CH_CTRL_REARM n) || armed))

/-- R268 to R273: enabling a receiver checks its settings; a frame takes the first unlocked buffer, or is dropped; a line of
RAW8 pixels stands in its row; a header error makes the frame bad; a whole frame ends, and completes in its buffer. The
model's readings in it: log entry 28. -/
def Obligations.Cameras : Prop :=
  ∀ (s : State) (m : Master) (n : PortNo) (v : Word) (vc : BitVec 2) (num : BitVec 16) (bs : List Byte) (key : Nat),
    let c := s.camSt n
    let s1 := { s with resp := .none }.maskWrite (R.CAM_CTRL n) (v ||| 0x80000000)
    let inOrder := s.waiting.any (isCamera n) = false
    let inFrame := inOrder ∧ s.camRuns n = true ∧ s.flag (F.CAM_STATUS_INFRAME n) = true ∧ c.ended = false ∧
      vc.toNat = s.get (F.CAM_FMT_VC n)
    let count := s.get (F.CAM_CTRL_NBUF n) + 1
    let first := match c.lastDone with | some b => (b + 1) % count | none => 0
    let reg := fun (r : Nat) => (s.rd r).toNat
    let buffer := fun (b : Nat) =>
      { c with
        ybase := reg (R.CAM_YBASE n b), aux := reg (R.CAM_AUX n b), aux2 := reg (R.CAM_AUX2 n b), lines := 0
        frameNum := num.toNat, ended := false }
    let taken := ((List.range count).map fun i => (first + i) % count).find? fun b => !natBit (s.get (F.CAM_LOCK_LOCK n)) b
    (s.pclkOn = true → s.flag (F.CAM_CTRL_EN n) = false → s.flag (F.CAM_STATUS_RUN n) = false →
      (s1.camCheck n = 0 → Runs (.camEnable m n v) s fun t => t.flag (F.CAM_STATUS_RUN n) = true ∧
        t.flag (F.CAM_CTRL_EN n) = true ∧ t.get (F.CAM_STATUS_CFGERR n) = 0 ∧ t.camSt n = {} ∧ SameMem s t ∧
        SameRegs (fun a => a = R.CAM_CTRL n ∨ a = R.CAM_STATUS n) s t) ∧
      (s1.camCheck n ≠ 0 → Runs (.camEnable m n v) s fun t => t.flag (F.CAM_STATUS_RUN n) = false ∧
        t.get (F.CAM_STATUS_CFGERR n) = s1.camCheck n)) ∧
    (s.pclkOn = true → Runs (.camDisable m n v) s fun t => t.flag (F.CAM_CTRL_EN n) = false ∧
      t.flag (F.CAM_STATUS_RUN n) = false ∧ t.flag (F.CAM_STATUS_INFRAME n) = false ∧
      t = { s with regs := t.regs, resp := t.resp, waiting := s.waiting.filter fun i => !isCamera n i } ∧
      SameRegs (fun a => a = R.CAM_CTRL n ∨ a = R.CAM_STATUS n) s t) ∧
    (inOrder → s.camRuns n = true → vc.toNat = s.get (F.CAM_FMT_VC n) → s.flag (F.CAM_STATUS_INFRAME n) = false → c.ended = false →
      s.cc.halted = false →
      (∀ b, taken = some b → s.camFits n (buffer b) = true →
        Runs (.frameStartPacket n vc num) s fun t => t.get (F.CAM_STATUS_WBUF n) = b ∧ (t.camSt n).lines = 0 ∧
          t.flag (F.CAM_STATUS_INFRAME n) = true ∧ (t.camSt n).ybase = reg (R.CAM_YBASE n b) ∧ SameMem s t ∧
          SameRegs (fun a => a = R.CAM_STATUS n) s t) ∧
      (taken = none → Runs (.frameStartPacket n vc num) s fun t => t.flag (F.CAM_STATUS_DROP n) = true ∧
        t.flag (F.CAM_STATUS_INFRAME n) = false ∧ t.cam = s.cam ∧ SameMem s t ∧
        SameRegs (fun a => a = R.CAM_STATUS n ∨ a = R.CAM_ERRCNT n) s t)) ∧
    (inFrame → s.get (F.CAM_FMT_DT n) = 0x2A → s.get (F.CAM_FMT_OUT n) = 3 → c.lines < s.get (F.CAM_SIZE_HEIGHT n) →
      bs.length = s.get (F.CAM_SIZE_WIDTH n) →
      s.blockPort (0x13 + n.val) (c.ybase + c.lines * s.get (F.CAM_STRIDE_STRIDE n)) bs.length = .ok key →
      Runs (.csiLongPacket n vc 0x2A true true bs) s fun t => (t.camSt n).lines = c.lines + 1 ∧
        (∀ j, t.rawByte j = if key ≤ j ∧ j < key + bs.length then bs.getD (j - key) 0 else s.rawByte j) ∧
        SameRegs (fun a => a = R.STORE_ECC_INJ) s t) ∧
    (inFrame → Runs (.csiLongPacket n vc 0x2A false true bs) s fun t => t.flag (F.CAM_STATUS_BAD n) = true ∧
      t.get (F.CAM_ERR_INFO_CAUSE n) = 1 ∧ t.flag (F.CAM_STATUS_INFRAME n) = false ∧ SameMem s t) ∧
    (inFrame → c.lines = s.get (F.CAM_SIZE_HEIGHT n) → Runs (.frameEndPacket n vc) s fun t =>
      t = s.setCam n { c with ended := true }) ∧
    (inFrame → c.lines ≠ s.get (F.CAM_SIZE_HEIGHT n) → Runs (.frameEndPacket n vc) s fun t =>
      t.flag (F.CAM_STATUS_BAD n) = true ∧ t.get (F.CAM_ERR_INFO_CAUSE n) = 4 ∧ t.flag (F.CAM_STATUS_INFRAME n) = false) ∧
    (inOrder → s.camRuns n = true → c.ended = true → Runs (.cameraFrameComplete n) s fun t =>
      t.rd (R.CAM_FRAME n) = s.rd (R.CAM_FRAME n) + 1 ∧ t.flag (F.CAM_STATUS_DONE n) = true ∧
      t.get (F.CAM_DONE_INFO_BUF n) = s.get (F.CAM_STATUS_WBUF n) ∧ t.flag (F.CAM_STATUS_INFRAME n) = false ∧
      (t.camSt n).lastDone = some (s.get (F.CAM_STATUS_WBUF n)) ∧ (t.camSt n).ended = false ∧ SameMem s t)

/-! ### Audio, links, serial ports, pins -/

/-- R276 to R279, R282, R286, R291: a tick counts, puts the last channel samples on the ports, advances each voice's phase and
brings asked-for coefficients into force; enabling a source resets it, or is refused with the address it could not reach;
the port settings are closed while the block runs. The model's readings in it: log entries 40 and 66. -/
def Obligations.Audio : Prop :=
  ∀ (s : State) (m : Master) (left right : Word) (late : BitVec 38) (n : SourceNo) (b : BitVec 2) (v : Word),
    let x := s.audSrc n
    let wave := s.get (F.AUD_V_CTRL_WAVE n)
    let s0 := { s with resp := .none }
    let s1 := s0.maskWrite (R.AUD_V_CTRL n) (v ||| 0x80000000)
    let fresh : SrcSt := { lfsr := if s1.get (F.AUD_V_CTRL_WAVE n) = 3 then 0x7F else 0x7FFF }
    let base := (s.rd (R.AUD_V_ADDR n)).toNat
    let asked := fun (bus : Nat) => (List.range 10).map fun i => sgn 32 (s.rd (R.AUD_B_COEF bus i)).toNat
    (s.audRuns = true → s.audFrozen = false → Runs (.audioTick left right late) s fun t =>
      t.rd R.AUD_TICK = s.rd R.AUD_TICK + 1 ∧ t.aud.ports = s.aud.out ∧ t.aud.out.length = 16 ∧ SameMem s t ∧
      (n.val < 32 → s.flag (F.AUD_V_CTRL_EN n) = true → wave < 5 → (t.audSrc n).p = x.p + s.rd (R.AUD_V_FREQ n)) ∧
      (∀ bus, bus < 4 → (t.audBus bus).coef = (if (s.audBus bus).commit then asked bus else (s.audBus bus).coef) ∧
        (t.audBus bus).commit = false) ∧
      ((∀ k, k < 38 → s.flag (F.AUD_V_CTRL_EN k) = false) →
        (∀ bus, bus < 4 → s.flag (F.AUD_B_CTRL_BQAEN bus) = false ∧ s.flag (F.AUD_B_CTRL_BQBEN bus) = false) →
        t.aud.out = List.replicate 16 0)) ∧
    (s.audRuns = true → s.audFrozen = true → Runs (.audioTick left right late) s fun t =>
      t.aud.ports = [] ∧ t.aud.out = [] ∧ t = { s with aud := t.aud }) ∧
    (s.audRuns = false → Runs (.audioTick left right late) s fun t => t = s) ∧
    (s.flag F.AUD_CTRL_CLKSRC = true → Runs .mclklost s fun t =>
      t.flag F.AUD_STATUS_MCLKLOST = true ∧ t.flag F.AUD_STATUS_MCLKEXT = false ∧ OnlyRegs (fun a => a = R.AUD_STATUS) s t) ∧
    (s.flag F.AUD_CTRL_CLKSRC = false → Runs .mclklost s fun t => t = s) ∧
    (s.pclkOn = true → n.val < 32 → s.flag (F.AUD_V_CTRL_EN n) = false → s1.get (F.AUD_V_CTRL_WAVE n) < 5 →
      Runs (.sourceEnable m n v) s fun t => t.flag (F.AUD_V_CTRL_EN n) = true ∧ t.audSrc n = fresh ∧
        t.rd (R.AUD_V_POS n) = 0 ∧ SameMem s t ∧ SameRegs (fun a => a = R.AUD_V_CTRL n ∨ a = R.AUD_V_POS n) s t) ∧
    (s.pclkOn = true → n.val < 32 → s.flag (F.AUD_V_CTRL_EN n) = false → s1.get (F.AUD_V_CTRL_WAVE n) = 5 →
      s.inDram base (s.get (F.AUD_V_LEN_LEN n)) = false → Runs (.sourceEnable m n v) s fun t =>
        t.flag (F.AUD_V_CTRL_EN n) = false ∧ t.flag F.AUD_STATUS_BUSERR = true ∧ t.rd R.AUD_ERR_ADDR = s.rd (R.AUD_V_ADDR n) ∧
        t.aud = s.aud) ∧
    (s.pclkOn = true → n.val < 32 → s.flag (F.AUD_V_CTRL_EN n) = true → Runs (.retrig m n v) s fun t =>
      t.flag (F.AUD_V_CTRL_EN n) = true ∧ (t.audSrc n).p = 0 ∧ (t.audSrc n).pos = 0 ∧ t.rd (R.AUD_V_POS n) = 0 ∧ SameMem s t) ∧
    (s.pclkOn = true → Runs (.commit m b v) s fun t => t.audBus b.toNat = { s.audBus b.toNat with commit := true } ∧
      SameMem s t ∧ SameRegs (fun a => a = R.AUD_B_CTRL b.toNat) s t) ∧
    (s.pclkOn = true → Runs (.audioEnable m v) s fun t => t.flag F.AUD_CTRL_EN = true ∧
      t.flag F.AUD_STATUS_MCLKEXT = bitOf v 16 ∧ OnlyRegsResp (fun a => a = R.AUD_CTRL ∨ a = R.AUD_STATUS) s t) ∧
    (∀ p, s.pclkOn = true → p < 3 →
      (s.flag F.AUD_CTRL_EN = true → Runs (.audRegisterWrite m (BitVec.ofNat 16 (0x20 + 4 * p)) v) s fun t => t = s0) ∧
      (s.flag F.AUD_CTRL_EN = false → Runs (.audRegisterWrite m (BitVec.ofNat 16 (0x20 + 4 * p)) v) s fun t =>
        t.get (F.AUD_P_CFG_MODE p) = v.toNat % 4 ∧ OnlyRegsResp (fun a => a = R.AUD_P_CFG p) s t))

/-- R11, R322 to R326: both lanes send a frame of 32 bytes under the next number, closed by its CRC-32C; a valid frame is copied,
and advances or stalls; an invalid one is counted; the loss of supervision shows the chosen layers, and does not come in the clock
of an advancing frame. The model's readings in it: log entries 72, 73 and 127. -/
def Obligations.Pragus : Prop :=
  ∀ (s : State) (n : PortNo) (bytes : List Byte),
    let seq := if s.prg.first then 0 else (s.get F.PRG_TXSEQ_SEQ + 1) % 65536
    let frame := fun (l : List Byte) => l.length = 32 ∧ l.take 2 = [0xD2, 0x4B] ∧ leNat ((l.drop 2).take 2) = seq ∧
      leNat (l.drop 28) = (crc32c (l.take 28)).toNat ∧ leNat ((l.drop 24).take 4) = (s.rd R.PRG_APP).toNat
    let valid := bytes.length = 32 ∧ bytes.take 2 = [0xD2, 0x4B] ∧ leNat (bytes.drop 28) = (crc32c (bytes.take 28)).toNat
    let got := leNat ((bytes.drop 2).take 2)
    let on := s.linkMode = true ∧ s.flag F.PRG_CTRL_RXEN = true
    let copied := fun (t : State) => t.get (F.PRG_CH_RXSEQ_SEQ n) = got ∧ t.flag F.PRG_STATUS_RXVALID = true ∧ SameMem s t ∧
      ∀ i, i < 8 → t.rd (R.PRG_CH_RX n i) = BitVec.ofNat 32 (leNat ((bytes.drop (4 * i)).take 4))
    (s.linkMode = true → s.flag F.PRG_CTRL_TXEN = true → Runs .pragusFrameSend s fun t =>
      t.get F.PRG_TXSEQ_SEQ = seq ∧ frame t.prg.sent0 ∧ frame t.prg.sent1 ∧ t.prg.first = false ∧
      (∀ h, h < 4 → (t.head h).failSince = 0) ∧ SameMem s t ∧ SameRegs (fun a => a = R.PRG_TXSEQ) s t) ∧
    (s.flag F.PRG_CTRL_TXEN = false → Runs .pragusFrameSend s fun t => t = s) ∧
    (on → valid → got = (s.get (F.PRG_CH_RXSEQ_SEQ n) + 1) % 65536 → Runs (.pragusFrameReceive n bytes) s fun t =>
      copied t ∧ t.prg.supRun = true ∧ t.prg.supAt = t.now ∧ t.flag F.PRG_STATUS_LOSTST = false ∧
      (s.flag F.PRG_STATUS_LOSTST = true → t.flag F.PRG_STATUS_REGAIN = true)) ∧
    (on → valid → got ≠ (s.get (F.PRG_CH_RXSEQ_SEQ n) + 1) % 65536 → (bytes.getD 4 0).getLsbD 6 = false →
      Runs (.pragusFrameReceive n bytes) s fun t => copied t ∧ t.flag F.PRG_STATUS_STALL = true ∧
        t.prg = s.prg ∧ t.flag F.PRG_STATUS_LOSTST = s.flag F.PRG_STATUS_LOSTST) ∧
    (on → bytes.length = 32 → ¬ valid → Runs (.pragusFrameReceive n bytes) s fun t =>
      t.flag F.PRG_STATUS_CRCERR = true ∧ t.get (F.PRG_CH_ERRCNT_CNT n) = min 65535 (s.get (F.PRG_CH_ERRCNT_CNT n) + 1) ∧
      OnlyRegs (fun a => a = R.PRG_STATUS ∨ a = R.PRG_CH_ERRCNT n) s t) ∧
    (s.prg.supAt = s.now → Runs .supervisionLost s fun t => t = s) ∧
    (s.linkMode = true → s.prg.supRun = true → s.prg.supAt ≠ s.now → Runs .supervisionLost s fun t =>
      t.flag F.PRG_STATUS_LOST = true ∧ t.flag F.PRG_STATUS_LOSTST = true ∧ t.prg.supRun = false ∧ SameMem s t ∧
      ∀ h, h < 4 → s.flag F.PRG_CTRL_LOSTEN = true → natBit (s.get F.PRG_LOSTSEL_HEADS) h = true →
        t.flag (F.HEAD_L_MODE_EN h (s.get F.PRG_LOSTSEL_LAYER)) = true)

/-- R230, R327 to R331: the link comes up where strap, LINKEN and mode allow it, and goes down; the host's windows reach Store by
ownership, the peripheral registers, the MSI-X table and DRAM; a request that ownership, R2 or the DBG rule refuses is aborted and
recorded, one to another offset, outside DRAM or in D3hot is unsupported, and one that a hand-over holds waits; an MSI-X vector is
triggered, waits, and sends its message. The model's readings in it: log entries 29, 75, 104, 130 and 131. -/
def Obligations.Pcie : Prop :=
  ∀ (s : State) (m : Master) (x2 : Bool) (speed : BitVec 2) (v w : Word) (off : BitVec 26) (vec : BitVec 5) (bs : List Byte),
    let up := s.flag F.PCIE_STATUS_LINKUP
    let o := off.toNat / 4 * 4
    let a := 0x10000000 + o
    let d := 0x80000000 + v.toNat / 4 * 4
    let s0 := { s with resp := .none }
    let stores := fun (t : State) (k : Nat) => t.rawWord k = w ∧ (∀ j, (j < k ∨ k + 4 ≤ j) → t.rawByte j = s.rawByte j)
    let sent := (s.msixWord (4 * vec.toNat), s.msixWord (4 * vec.toNat + 1), s.msixWord (4 * vec.toNat + 2))
    let live := up = true ∧ s.pcie.d3hot = false ∧ s.waiting.any isHost = false
    let errs := fun (t : State) (bit : Nat) =>
      t.pcie.aerUnc = s.pcie.aerUnc ||| BitVec.ofNat 32 (2 ^ bit) ∧ t.pcie = { s.pcie with
        aerUnc := t.pcie.aerUnc, devStatus := t.pcie.devStatus, status := t.pcie.status }
    let unsupported := fun (c : Option Word → Instr) =>
      (Runs (c none) s fun t => t.resp = .unsupported ∧ errs t 20 ∧ t = { s with resp := t.resp, pcie := t.pcie }) ∧
      (Runs (c (some w)) s fun t => t.resp = .none ∧ errs t 20 ∧ t = { s with resp := t.resp, pcie := t.pcie })
    let aborted := fun (c : Option Word → Instr) (p : Nat → Prop) => ∀ wr, Runs (c wr) s fun t =>
      t.resp = (match wr with | none => .aborted | some _ => .none) ∧ errs t 15 ∧ t.flag F.PCIE_STATUS_ERR = true ∧
      (s.flag F.PCIE_STATUS_ERR = false → t.rd R.PCIE_ERR_ADDR = BitVec.ofNat 32 o) ∧
      (s.flag F.PCIE_STATUS_ERR = true → t.rd R.PCIE_ERR_ADDR = s.rd R.PCIE_ERR_ADDR) ∧
      t = { s with regs := t.regs, resp := t.resp, pcie := t.pcie } ∧
      SameRegs (fun r => r = R.PCIE_STATUS ∨ r = R.PCIE_ERR_ADDR ∨ p r) s t
    let word := (o - 0x3FF0000) / 4
    let may := up = true ∧ s.pcie.msixEn = true ∧ s.pcie.maskAll = false ∧ s.pcie.d3hot = false ∧
      bitOf (s.msixWord (4 * vec.toNat + 3)) 0 = false
    (s.flag F.PCIE_STATUS_STRAP = true → s.flag F.PCIE_CTRL_LINKEN = true → s.pcieMode = true → up = false → speed ≠ 0 →
      Runs (.pcieLinkUp x2 speed) s fun t => t.flag F.PCIE_STATUS_LINKUP = true ∧ t.flag F.PCIE_STATUS_LINKCHG = true ∧
        t.get F.PCIE_STATUS_WIDTH = (if x2 then 2 else 1) ∧ t.get F.PCIE_STATUS_SPEED = speed.toNat ∧
        OnlyRegs (fun a => a = R.PCIE_STATUS) s t) ∧
    (up = true → Runs .pcieLinkDown s fun t => t.flag F.PCIE_STATUS_LINKUP = false ∧ t.flag F.PCIE_STATUS_LINKCHG = true ∧
      OnlyRegs (fun a => a = R.PCIE_STATUS) s t) ∧
    (s.pclkOn = true → Runs (.linkenWrite m v) s fun t => t.flag F.PCIE_CTRL_LINKEN = bitOf v 0 ∧
      t.flag F.PCIE_STATUS_LINKUP = (up && bitOf v 0) ∧ OnlyRegsResp (fun a => a = R.PCIE_CTRL ∨ a = R.PCIE_STATUS) s t) ∧
    (live → o < 0x800000 → s.ownerPort 0x16 a = .ok a →
      (s.eccBytes a 4 = (bs, .clean) → s.undef = [] → Runs (.bar0Access off 15 none) s fun t =>
        t = { s with resp := .data (BitVec.ofNat 32 (leNat bs)) }) ∧
      (Runs (.bar0Access off 15 (some w)) s fun t => stores t a ∧ SameRegs (fun r => r = R.STORE_ECC_INJ) s t)) ∧
    (∀ k be, live → o < 0x800000 → s.ownerPort 0x16 a = .bus k →
      aborted (.bar0Access off be) fun r => r = R.STORE_ACC_ERR ∨ r = R.STORE_ACC_ADDR ∨ r = R.STORE_STATUS) ∧
    (∀ b be wr, live → o < 0x800000 → s.ownerPort 0x16 a = .held b → s.blocked = false → Runs (.bar0Access off be wr) s fun t =>
      t = { s with waiting := s.waiting ++ [.host off be wr] }) ∧
    (∀ be, live → 0x1000000 ≤ o → o < 0x1180000 → (be ≠ 15 ∨ 0x1170000 ≤ o) → aborted (.bar0Access off be) fun _ => False) ∧
    (∀ r rw w1c, live → (r, rw, w1c) ∈ plainRegs → o = r - 0x40000000 + 0x1000000 → Runs (.bar0Access off 15 (some w)) s fun t =>
      OnlyRegsResp (fun b => b = r) s t ∧ t.resp = .none ∧ ∀ i, i < 32 → bitOf (t.rd r) i =
        if rw.testBit i then bitOf w i else bitOf (s.rd r) i && !(w1c.testBit i && bitOf w i)) ∧
    (∀ r rc, live → (r, rc) ∈ readClearRegs → o = r - 0x40000000 + 0x1000000 → Runs (.bar0Access off 15 none) s fun t =>
      OnlyRegsResp (fun b => b = r) s t ∧ t.resp = .data (s.rd r) ∧
      ∀ i, i < 32 → bitOf (t.rd r) i = (!rc.testBit i && bitOf (s.rd r) i)) ∧
    (live → 0x3FF0000 ≤ o → o < 0x3FF0200 →
      (Runs (.bar0Access off 15 none) s fun t => t = { s with resp := .data (s.msixWord word) }) ∧
      (Runs (.bar0Access off 15 (some w)) s fun t => t.msixWord word = w ∧ t = { s with resp := .none, pcie := t.pcie } ∧
        ∀ k, k ≠ word → t.msixWord k = s.msixWord k)) ∧
    (live → o = 0x3FF1000 → Runs (.bar0Access off 15 none) s fun t => t = { s with resp := .data s.pcie.pend }) ∧
    (∀ be, live → (0x800000 ≤ o ∧ o < 0x1000000 ∨ 0x1180000 ≤ o ∧ o < 0x3FF0000 ∨ 0x3FF0200 ≤ o ∧ o < 0x3FF1000 ∨ 0x3FF1008 ≤ o) →
      unsupported (.bar0Access off be)) ∧
    (∀ be, up = true → s.pcie.d3hot = true → s.waiting.any isHost = false →
      unsupported (.bar0Access off be) ∧ unsupported (.bar2Access v be)) ∧
    (up = true → s.pcie.d3hot = false → s.inDram d 4 = true →
      (s.eccBytes d 4 = (bs, .clean) → Runs (.bar2Access v 15 none) s fun t =>
        t = { s with resp := .data (BitVec.ofNat 32 (leNat bs)) }) ∧
      (Runs (.bar2Access v 15 (some w)) s fun t => stores t d ∧ SameRegs (fun _ => False) s t)) ∧
    (∀ be, up = true → s.inDram d 4 = false → unsupported (.bar2Access v be)) ∧
    (s.pclkOn = true → Runs (.msixSend m (BitVec.ofNat 32 (2 ^ vec.toNat))) s fun t =>
      if up && s.pcie.msixEn then t = { s0 with pcie := { s.pcie with pend := s.pcie.pend ||| BitVec.ofNat 32 (2 ^ vec.toNat) } }
      else t.flag F.PCIE_STATUS_MSIDROP = true ∧ OnlyRegsResp (fun a => a = R.PCIE_STATUS) s t) ∧
    (may → bitOf s.pcie.pend vec.toNat = true → Runs (.msixMessage vec) s fun t =>
      t.pcie = { s.pcie with pend := s.pcie.pend &&& ~~~(BitVec.ofNat 32 (2 ^ vec.toNat)), sent := some sent } ∧
      t = { s with pcie := t.pcie }) ∧
    (¬ may → Runs (.msixMessage vec) s fun t => t = s) ∧
    (up = true → (Runs (.configurationRequest .readId) s fun t => t = { s with resp := .data (s.rd R.PCIE_ID) }) ∧
      (Runs (.configurationRequest .readClass) s fun t => t = { s with resp := .data 0x03800000 }) ∧
      (Runs (.configurationRequest (.writeBar 0 v)) s fun t =>
        t = { s with pcie := { s.pcie with bar0 := v &&& 0xFC000000 } }) ∧
      (∀ d3, Runs (.configurationRequest (.setPower d3)) s fun t => t = { s with pcie := { s.pcie with d3hot := d3 } }) ∧
      (∀ e ma, Runs (.configurationRequest (.setMsix e ma)) s fun t =>
        t = { s with pcie := { s.pcie with msixEn := e, maskAll := ma } }) ∧
      (Runs (.configurationRequest (.readAer 0)) s fun t => t = { s with resp := .data s.pcie.aerUnc }) ∧
      (Runs (.configurationRequest (.writeAer 0 v)) s fun t =>
        t = { s with pcie := { s.pcie with aerUnc := s.pcie.aerUnc &&& ~~~v } }))

/-- R332 to R336: TXPOLL looks again at the head descriptor; an unowned one leaves TXIDLE, an owned one is sent, padded to 60
bytes, and given back; a frame that is too short, too long or broken is counted, a filtered one dropped, an accepted one written to
the head receive descriptor's buffer; the management port; and the PTP clock read, set, adjusted and running. The model's readings
in it: log entries 27 and 74. -/
def Obligations.EthernetAndPtp : Prop :=
  ∀ (s : State) (m : Master) (n : PortNo) (v : Word) (b d bytes : List Byte) (rd : BitVec 16) (k kb : Nat),
    let e := s.ethSt n
    let ta := (s.rd (R.ETH_TXBASE n)).toNat / 16 * 16 + 16 * s.get (F.ETH_TXHEAD_HEAD n)
    let ra := (s.rd (R.ETH_RXBASE n)).toNat / 16 * 16 + 16 * s.get (F.ETH_RXHEAD_HEAD n)
    let next := fun (i len : Nat) => if i + 1 < len then i + 1 else 0
    let dw := descWords b
    let len := bitsOf dw.2.1 0 16
    let sends := s.waiting.any (isMacTx n) = false ∧ s.linkOn = true ∧ s.cc.halted = false ∧
      s.flag (F.ETH_STATUS_TXRUN n) = true ∧ e.poll = true ∧ e.pause ≤ s.now
    let gets := s.waiting.any (isMacRx n) = false ∧ s.linkOn = true ∧ s.flag (F.ETH_STATUS_RXRUN n) = true
    let whole := 60 ≤ bytes.length ∧ bytes.length ≤ 1518
    let passes := s.destOk n bytes && s.vlanOk n bytes && s.etypeOk n bytes
    let s0 := { s with resp := .none }
    (s.pclkOn = true → bitOf v 0 = true → s.flag (F.ETH_STATUS_TXRUN n) = true → Runs (.txpoll m n v) s fun t =>
      t = s0.setEth n { e with poll := true }) ∧
    (sends → s.blockRead 0x15 5 ta 16 = (some (b, .clean), s) → bitOf dw.2.1 31 = false → Runs (.ethTransmitFrame n) s fun t =>
      t.flag (F.ETH_STATUS_TXIDLE n) = true ∧ (t.ethSt n).poll = false ∧ SameMem s t ∧
      SameRegs (fun a => a = R.ETH_STATUS n) s t) ∧
    (sends → s.blockRead 0x15 5 ta 16 = (some (b, .clean), s) → bitOf dw.2.1 31 = true → 14 ≤ len → len ≤ 1518 →
      s.blockRead 0x15 5 (dw.1.toNat / 4 * 4) len = (some (d, .clean), s) → s.blockPort 0x15 (ta + 4) 12 = .ok k →
      Runs (.ethTransmitFrame n) s fun t => (t.ethSt n).sent = d ++ List.replicate (60 - len) 0 ∧ (t.ethSt n).sentOk = true ∧
        bitOf (t.rawWord k) 31 = false ∧ bitOf (t.rawWord k) 29 = true ∧
        (∀ j, (j < k ∨ k + 12 ≤ j) → t.rawByte j = s.rawByte j) ∧
        t.get (F.ETH_TXHEAD_HEAD n) = next (s.get (F.ETH_TXHEAD_HEAD n)) (s.get (F.ETH_TXLEN_LEN n)) % 256 ∧
        (bitOf dw.2.1 30 = true → t.flag (F.ETH_STATUS_TXDONE n) = true)) ∧
    (gets → whole → Runs (.ethReceiveFrame n false bytes) s fun t =>
      t.get (F.ETH_CNT_ERR_FCS n) = min 65535 (s.get (F.ETH_CNT_ERR_FCS n) + 1) ∧
      OnlyRegs (fun a => a = R.ETH_CNT_ERR n) s t) ∧
    (∀ ok, gets → (bytes.length < 60 ∨ 1518 < bytes.length) → Runs (.ethReceiveFrame n ok bytes) s fun t =>
      t.get (F.ETH_CNT_ERR_LENGTH n) = min 65535 (s.get (F.ETH_CNT_ERR_LENGTH n) + 1) ∧
      t.get (F.ETH_CNT_ERR_FCS n) = (if ok then s.get (F.ETH_CNT_ERR_FCS n) else min 65535 (s.get (F.ETH_CNT_ERR_FCS n) + 1)) ∧
      OnlyRegs (fun a => a = R.ETH_CNT_ERR n) s t) ∧
    (gets → whole → s.isPause n bytes = false → passes = false → Runs (.ethReceiveFrame n true bytes) s fun t =>
      t.get (F.ETH_CNT_DROP_FILT n) = min 65535 (s.get (F.ETH_CNT_DROP_FILT n) + 1) ∧
      OnlyRegs (fun a => a = R.ETH_CNT_DROP n) s t) ∧
    (gets → whole → s.isPause n bytes = false → passes = true → s.blockRead 0x15 5 ra 16 = (some (b, .clean), s) →
      bitOf dw.2.1 31 = true → bytes.length ≤ len → s.blockPort 0x15 (dw.1.toNat / 4 * 4) bytes.length = .ok kb →
      s.blockPort 0x15 (ra + 4) 12 = .ok k → (k + 12 ≤ kb ∨ kb + bytes.length ≤ k) →
      Runs (.ethReceiveFrame n true bytes) s fun t =>
        (∀ j, j < bytes.length → t.rawByte (kb + j) = bytes.getD j 0) ∧
        bitOf (t.rawWord k) 31 = false ∧ bitsOf (t.rawWord k) 0 16 = bytes.length ∧
        (∀ j, (j < k ∨ k + 12 ≤ j) → (j < kb ∨ kb + bytes.length ≤ j) → t.rawByte j = s.rawByte j) ∧
        t.get (F.ETH_RXHEAD_HEAD n) = next (s.get (F.ETH_RXHEAD_HEAD n)) (s.get (F.ETH_RXLEN_LEN n)) % 256) ∧
    (s.pclkOn = true → s.flag (F.ETH_MDIO_BUSY n) = false → Runs (.mdioGo m n v) s fun t =>
      t.flag (F.ETH_MDIO_BUSY n) = true ∧ OnlyRegsResp (fun a => a = R.ETH_MDIO n) s t) ∧
    (s.pclkOn = true → s.flag (F.ETH_MDIO_BUSY n) = true → Runs (.mdioGo m n v) s fun t => t = s0) ∧
    (s.flag (F.ETH_MDIO_BUSY n) = true → Runs (.mdioDone n rd) s fun t => t.flag (F.ETH_MDIO_BUSY n) = false ∧
      (s.flag (F.ETH_MDIO_READ n) = true → t.get (F.ETH_MDIO_DATA n) = rd.toNat) ∧ OnlyRegs (fun a => a = R.ETH_MDIO n) s t) ∧
    (s.pclkOn = true → m ≠ .debug → Runs (.ptpNsRead m) s fun t => t.resp = .data (BitVec.ofNat 32 s.ptp.ns) ∧
      t.ptp = { s.ptp with holdSec := s.ptp.sec } ∧ t = { s with ptp := t.ptp, resp := t.resp }) ∧
    (s.pclkOn = true → Runs (.ptpNsWrite m v) s fun t => t.ptp.ns = v.toNat % 2 ^ 30 ∧
      t.ptp.sec = s.get F.ETH_0_PTP_SEC_HI_SEC * 2 ^ 32 + (s.rd R.ETH_0_PTP_SEC_LO).toNat ∧ t = { s0 with ptp := t.ptp }) ∧
    (s.pclkOn = true → 3 ≤ s.ptp.sec → s.ptp.sec < 2 ^ 47 → s.ptp.ns < 1000000000 → Runs (.ptpAdj m v) s fun t =>
      (t.ptp.sec : Int) * 1000000000 + t.ptp.ns = (s.ptp.sec : Int) * 1000000000 + s.ptp.ns + v.toInt ∧
      t.ptp.ns < 1000000000 ∧ t = { s0 with ptp := t.ptp }) ∧
    (s.pending = [] → s.flag F.WDT_CTRL_EN = false → s.pclkOn = true → s.ptp.ns < 1000000000 → s.ptp.sec < 2 ^ 47 →
      ∃ t, step s = .next t ∧ (t.ptp.sec * 1000000000 + t.ptp.ns) * 2 ^ 24 + t.ptp.frac =
        (s.ptp.sec * 1000000000 + s.ptp.ns) * 2 ^ 24 + s.ptp.frac + (s.rd R.ETH_0_PTP_INC).toNat)

/-- R11, R337, R340, R374: the FIFOs of UART and SPI take up to 16 entries and give them out in order; what arrives on a pin that
the N1024 does not drive is queued, or lost with OVR; a frozen port ends what was under way and does no more; an I2C transfer
starts on an enabled idle port with a length of 1 to 16 and ends with its outcome; a QSPI command starts, is held while the
sequencer reads the flash, and ends with its bytes in the buffer. The model's readings in it: log entries 67, 68, 69, 70, 71, 126
and 127. -/
def Obligations.SerialPorts : Prop :=
  ∀ (s : State) (m : Master) (n : PortNo) (v : Word) (d : Byte) (rx : List Byte), s.pclkOn = true →
    let u := s.uartSt n
    let p := s.spiSt n
    let q := s.i2cSt n
    let room := fun (l : List Word) (w : Word) => if l.length < 16 then l ++ [w] else l
    let s0 := { s with resp := .none }
    let moves := s.linkOn = true ∧ s.cc.halted = false
    let ibusy := s.flag (F.I2C_STATUS_BUSY n)
    let len := v.toNat % 32
    let ends := fun (c : Instr) (f : Fld) => Runs c s fun t => t.flag (F.I2C_STATUS_BUSY n) = false ∧ t.flag f = true ∧
      SameMem s t ∧ SameRegs (fun a => a = R.I2C_STATUS n) s t ∧
      (s.flag (F.I2C_CMD_READ n) = false → (t.i2cSt n).tx = q.tx.drop (s.get (F.I2C_CMD_LEN n)) ∧ (t.i2cSt n).rx = q.rx)
    let frozen := s.serFrozen
    let upto := RunsUpToEvents
    let ends := fun (c : Instr) (f : Fld) => s.serMoves q.txDone = true → ends c f
    (upto (.uartDataWrite m n v) s fun t =>
      t = s0.setUart n { u with tx := room u.tx (v &&& 0xFF), txDone := u.txDone || (frozen && u.tx.isEmpty) }) ∧
    (m ≠ .debug → upto (.uartDataRead m n) s fun t => t.resp = .data (u.rx.headD 0) ∧ (t.uartSt n).rx = u.rx.tail ∧
      (t.uartSt n).tx = u.tx ∧ t = { s with uart := t.uart, resp := t.resp }) ∧
    (moves → s.flag (F.UART_CTRL_EN n) = true → s.fnSees (96 + 2 * n) = true → s.get (F.UART_CTRL_PARITY n) = 0 →
      s.flag (F.UART_CTRL_BITS7 n) = false → s.stage (s.get (F.PIN_SEL_PIN (96 + 2 * n))) = none →
      upto (.uartCharacterReceived n d true true) s fun t =>
        t.uartSt n = { u with rx := room u.rx (d.setWidth 32), rxAt := some s.now, rxDone := false } ∧
        (∀ o : PortNo, o ≠ n → t.uartSt o = s.uartSt o) ∧ t = { s with regs := t.regs, uart := t.uart } ∧
        t.flag (F.UART_STATUS_OVR n) = (s.flag (F.UART_STATUS_OVR n) || decide (16 ≤ u.rx.length)) ∧
        SameRegs (fun a => a = R.UART_STATUS n ∧ 16 ≤ u.rx.length) s t) ∧
    (∀ c cs, moves → s.flag (F.UART_CTRL_EN n) = true → s.flag (F.UART_CTRL_RTSCTS n) = false →
      s.flag (F.UART_CTRL_BITS7 n) = false → u.tx = c :: cs → upto (.uartCharacterSent n) s fun t =>
        t = s.setUart n { u with tx := cs, last := c &&& 0xFF, txDone := false }) ∧
    (frozen = true → (u.rxDone = true → Runs (.uartCharacterReceived n d true true) s fun t => t = s) ∧
      (u.txDone = true → Runs (.uartCharacterSent n) s fun t => t = s) ∧
      (p.txDone = true → Runs (.spiFrameDone n v) s fun t => t = s) ∧
      (q.txDone = true → ∀ how, Runs (.i2cDone n how rx) s fun t => t = s)) ∧
    (u.rxAt = some s.now → Runs (.uartIdle n) s fun t => t = s) ∧
    (moves → s.flag (F.UART_CTRL_EN n) = true → s.get (F.UART_IDLE_CHARS n) ≠ 0 → u.rxAt ≠ some s.now →
      Runs (.uartIdle n) s fun t =>
      t.flag (F.UART_STATUS_IDLE n) = true ∧ OnlyRegs (fun a => a = R.UART_STATUS n) s t) ∧
    (upto (.spiDataWrite m n v) s fun t =>
      t = s0.setSpi n { p with tx := room p.tx v, txDone := p.txDone || (frozen && p.tx.isEmpty) }) ∧
    (m ≠ .debug → Runs (.spiDataRead m n) s fun t => t.resp = .data (p.rx.headD 0) ∧ (t.spiSt n).rx = p.rx.tail ∧
      (t.spiSt n).tx = p.tx ∧ t = { s with spi := t.spi, resp := t.resp }) ∧
    (∀ c cs, moves → s.flag (F.SPI_CTRL_EN n) = true → s.fnSees (100 + n) = true → p.tx = c :: cs →
      s.stage (s.get (F.PIN_SEL_PIN (100 + n))) = none → upto (.spiFrameDone n v) s fun t => (t.spiSt n).tx = cs ∧
        t.flag (F.SPI_STATUS_DONE n) = true ∧
        (t.spiSt n).rx = room p.rx (BitVec.ofNat 32 (v.toNat % 2 ^ (s.get (F.SPI_CTRL_BITS n) + 1))) ∧
        (16 ≤ p.rx.length → t.flag (F.SPI_STATUS_OVR n) = true) ∧ SameMem s t ∧
        SameRegs (fun a => a = R.SPI_STATUS n) s t) ∧
    (ibusy = false → s.flag (F.I2C_CTRL_EN n) = true → 1 ≤ len → len ≤ 16 → upto (.i2cGo m n v) s fun t =>
      t.flag (F.I2C_STATUS_BUSY n) = true ∧ t.get (F.I2C_CMD_LEN n) = len ∧ t.i2cSt n = { q with txDone := frozen } ∧
      (∀ o : PortNo, o ≠ n → t.i2cSt o = s.i2cSt o) ∧ t = { s with regs := t.regs, resp := t.resp, i2c := t.i2c } ∧
      SameRegs (fun a => a = R.I2C_CMD n ∨ a = R.I2C_STATUS n) s t) ∧
    ((ibusy = true ∨ s.flag (F.I2C_CTRL_EN n) = false) → upto (.i2cGo m n v) s fun t => t = s0) ∧
    (ibusy = true → s.i2cRouted n = true → ends (.i2cDone n .done rx) (F.I2C_STATUS_DONE n) ∧
      ends (.i2cDone n .arbLost rx) (F.I2C_STATUS_ARBLOST n) ∧
      (s.flag (F.I2C_CMD_READ n) = true → q.rx = [] → s.get (F.I2C_CMD_LEN n) ≤ 16 → s.serMoves q.txDone = true →
        Runs (.i2cDone n .done rx) s fun t =>
        (t.i2cSt n).rx = (rx.take (s.get (F.I2C_CMD_LEN n))).map (·.setWidth 32))) ∧
    (ibusy = true → ends (.i2cDone n .nack rx) (F.I2C_STATUS_NACK n)) ∧
    (ibusy = true → s.get (F.I2C_TOUT_TOUT n) ≠ 0 → ends (.i2cTimeout n) (F.I2C_STATUS_TIMEOUT n)) ∧
    (s.flag F.QSPI_STATUS_BUSY = false → v.toNat % 512 ≤ 256 → upto (.qspiGo m v) s fun t =>
      t.flag F.QSPI_STATUS_BUSY = true ∧ (s.seqReads = true → t.flag F.QSPI_STATUS_HELD = true) ∧
      t.get F.QSPI_CMD_LEN = v.toNat % 512 ∧ OnlyRegsResp (fun a => a = R.QSPI_CMD ∨ a = R.QSPI_STATUS) s t) ∧
    (s.flag F.QSPI_STATUS_BUSY = true → upto (.qspiGo m v) s fun t =>
      t.flag F.QSPI_STATUS_REFUSED = true ∧ OnlyRegsResp (fun a => a = R.QSPI_STATUS) s t) ∧
    (s.flag F.QSPI_STATUS_HELD = true → s.seqReads = false → Runs .qspiCommandStart s fun t =>
      t.flag F.QSPI_STATUS_HELD = false ∧ OnlyRegs (fun a => a = R.QSPI_STATUS) s t) ∧
    (s.flag F.QSPI_STATUS_BUSY = true → s.flag F.QSPI_STATUS_HELD = false → s.flag F.QSPI_CMD_WRITE = false → rx.length ≤ 256 →
      Runs (.qspiDone rx []) s fun t => t.flag F.QSPI_STATUS_BUSY = false ∧ t.flag F.QSPI_STATUS_DONE = true ∧
        t.flash = s.flash ∧ ∀ i, i < rx.length → i < s.get F.QSPI_CMD_LEN →
          bitsOf (t.rd (R.QSPI_BUF (i / 4))) (8 * (i % 4)) 8 = (rx.getD i 0).toNat) ∧
    (∀ a x, s.flag F.QSPI_STATUS_BUSY = true → s.flag F.QSPI_STATUS_HELD = false → s.flag F.QSPI_CMD_WRITE = true →
      Runs (.qspiDone [] [(a, x)]) s fun t => tabGet flashDefault t.flash a = x ∧
        ∀ c, c ≠ a → tabGet flashDefault t.flash c = tabGet flashDefault s.flash c)

/-- R348, R350: PIN_Pk_SET, PIN_Pk_CLR and PIN_Pk_TGL set, clear and invert the PIN_Pk_OUT bits written as one; a write to
PIN_Pk_OUT replaces all 24 bits; PIN_Pk_IN reads every pin's synchronised level, whatever its routing, and 0 for pins with ANA = 1;
the pad shows a change of OUT with the write; an event line sees the edges of its pin whoever drives it. -/
def Obligations.PinOutputs : Prop :=
  ∀ (s : State) (m : Master) (k : BitVec 2) (v : Word), s.pclkOn = true →
    let out := fun (t : State) (i : Nat) => bitOf (t.rd (R.PIN_P_OUT k.toNat)) i
    let only := fun (t : State) => OnlyRegsResp (fun a => a = R.PIN_P_OUT k.toNat) s t
    (RunsUpToEvents (.pinSet m k v) s fun t => only t ∧ ∀ i, i < 24 → out t i = (out s i || bitOf v i)) ∧
    (RunsUpToEvents (.pinClr m k v) s fun t => only t ∧ ∀ i, i < 24 → out t i = (out s i && !bitOf v i)) ∧
    (RunsUpToEvents (.pinTgl m k v) s fun t => only t ∧ ∀ i, i < 24 → out t i = (out s i != bitOf v i)) ∧
    (RunsUpToEvents (.registerWrite m (BitVec.ofNat 32 (R.PIN_P_OUT k.toNat)) v) s fun t => only t ∧ ∀ i, i < 24 →
      out t i = bitOf v i) ∧
    (m ≠ .debug → Runs (.rcRead m (BitVec.ofNat 32 (R.PIN_P_IN k.toNat)) 0) s fun t => ∃ w, t.resp = .data w ∧
      ∀ i, i < 24 → bitOf w i = s.inLevel (24 * k.toNat + i) ∧
        (s.flag (F.PIN_CFG_ANA (24 * k.toNat + i)) = true → bitOf w i = false)) ∧
    (∀ i, i < 24 → s.pins.latch = none → s.tap.ir ≠ 0 →
      let p := 24 * k.toNat + i
      s.bankUp (pinBank p) = true → s.flag (F.PIN_CFG_ANA p) = false → s.flag (F.PIN_CFG_OD p) = false →
      bitOf (s.rd (R.PIN_P_OE k.toNat)) i = true → (∀ f, f < 60 → s.fnOn f p = false) →
      s.padLevel p = out s i ∧ s.inLevel p = out s i) ∧
    (∀ p n, n < 8 → s.lineOn n = true → s.linePin n = p → natBit s.pins.evtInit n = true →
      let u := s.pinSync
      let hit := match s.get (F.PIN_EVT_EDGE n) with
        | 0 => s.inLevel p = true ∧ natBit s.pins.evtSeen n = false
        | 1 => s.inLevel p = false ∧ natBit s.pins.evtSeen n = true
        | 2 => s.inLevel p ≠ natBit s.pins.evtSeen n
        | _ => s.inLevel p = true
      UpToEvents s u ∧ natBit u.pins.evtSeen n = s.inLevel p ∧
      (natBit (u.get F.PIN_EVT_STATUS_BITS) n = true ↔ natBit (s.get F.PIN_EVT_STATUS_BITS) n = true ∨ hit))

/-- R98, R343, R344, R346, R349, R350, R352, R381: a function takes only a pin that exists; an edge of the selected kind sets its
event line's bit; the private port repeats the PIN block's first words, and every other access of it raises exception 6, or 3 where
it is misaligned; a bank's supply code shows, without supply its latch holds nothing, and bank D without its supply holds the N1024
in reset. The model's readings in it: log entries 64 and 78. -/
def Obligations.PinsAndEvents : Prop :=
  ∀ (s : State) (m : Master) (v : Word) (f : Nat) (off : BitVec 16) (size : BitVec 2) (n : BitVec 3) (k code : BitVec 2),
    let p := s.linePin n.toNat
    let s0 := { s with resp := .none }
    (s.pclkOn = true → f < 104 → (f < 60 ∨ 64 ≤ f) →
      (v.toNat % 128 < 96 → RunsUpToEvents (.pinSelWrite m (BitVec.ofNat 16 (0x400 + 4 * f)) v) s fun t =>
        t.get (F.PIN_SEL_PIN f) = v.toNat % 128 ∧ OnlyRegsResp (fun a => a = R.PIN_SEL f) s t) ∧
      (96 ≤ v.toNat % 128 → RunsUpToEvents (.pinSelWrite m (BitVec.ofNat 16 (0x400 + 4 * f)) v) s fun t => t = s0)) ∧
    (∀ wr, s.runnable .cc = true → off.toNat % 2 ^ size.toNat = 0 → (0x78 ≤ off.toNat ∨ size.toNat < 2) →
      RaisesOn s (.privatePortAccess off size wr) s .cc
        { num := 6, sub := 1, acc := if wr.isSome then 3 else 2, eaddr := BitVec.ofNat 32 (0x180000 + off.toNat) }) ∧
    (∀ wr, s.runnable .cc = true → off.toNat % 2 ^ size.toNat ≠ 0 → RaisesOn s (.privatePortAccess off size wr) s .cc
      { num := 3, acc := if wr.isSome then 3 else 2, eaddr := BitVec.ofNat 32 (0x180000 + off.toNat) }) ∧
    (∀ wr, s.runnable .cc = false → Runs (.privatePortAccess off size wr) s fun t => t = s) ∧
    (s.runnable .cc = true → size = 2 → off = 0x28 → RunsUpToEvents (.privatePortAccess off size (some v)) s fun t =>
      t.rd (R.PIN_P_OUT 1) = (s.rd (R.PIN_P_OUT 1) ||| v) &&& 0xFFFFFF ∧ OnlyRegsResp (fun a => a = R.PIN_P_OUT 1) s t) ∧
    (s.runnable .cc = true → size = 2 → off = 0x20 → Runs (.privatePortAccess off size none) s fun t =>
      t.resp = .data (s.pinIn 1) ∧ t = { s with resp := t.resp }) ∧
    (s.flag (F.PIN_EVT_EN n.toNat) = true → s.pins.latch = none → s.bankUp (pinBank p) = true →
      s.flag (F.PIN_CFG_ANA p) = false → s.drivers p = [] → s.tap.ir ≠ 0 →
      (s.get (F.PIN_EVT_EDGE n.toNat) = 0 → Runs (.pinEvent n true) s fun t =>
        natBit (t.get F.PIN_EVT_STATUS_BITS) n.toNat = true ∧ t.inLevel p = true ∧ SameMem s t ∧
        SameRegs (fun a => a = R.PIN_EVT_STATUS) s t) ∧
      (s.get (F.PIN_EVT_EDGE n.toNat) = 1 → Runs (.pinEvent n false) s fun t =>
        natBit (t.get F.PIN_EVT_STATUS_BITS) n.toNat = true ∧ t.inLevel p = false) ∧
      (s.get (F.PIN_EVT_EDGE n.toNat) = 1 → Runs (.pinEvent n true) s fun t =>
        natBit (t.get F.PIN_EVT_STATUS_BITS) n.toNat = natBit (s.get F.PIN_EVT_STATUS_BITS) n.toNat ∧ t.inLevel p = true) ∧
      (s.get (F.PIN_EVT_EDGE n.toNat) = 3 → Runs (.pinEvent n true) s fun t =>
        natBit (t.get F.PIN_EVT_STATUS_BITS) n.toNat = true ∧ t.inLevel p = true)) ∧
    (k ≠ 3 → RunsUpToEvents (.bankSupplyChange k code) s fun t => bitsOf (t.rd R.PIN_BANK_STATUS) (2 * k.toNat) 2 = code.toNat ∧
      t = { s with regs := t.regs, pins := { s.pins with latch := t.pins.latch } } ∧
      SameRegs (fun a => a = R.PIN_BANK_STATUS) s t ∧ ((code = 1 ∨ code = 2) → t.pins.latch = s.pins.latch) ∧
      ((code = 0 ∨ code = 3) → ∀ q, pinBank q = k.toNat → t.driveOf q = none ∧ t.stage q = none ∧ t.inLevel q = false ∧
        ∀ l, t.pins.latch = some l → l.getD q none = none)) ∧
    ((code = 0 ∨ code = 3) → Runs (.bankSupplyChange 3 code) s fun t => t.boot.phase = .inReset ∧ t.mode.pinHold = true ∧
      t.flag F.SYS_RESET_CAUSE_PIN = true) ∧
    ((code = 1 ∨ code = 2) → Runs (.bankSupplyChange 3 code) s fun t => t.mode.pinHold = false)

/-! ### The debug port -/

namespace Sys2Proof.Machine

/-- The TAP is in DBGACC after an access that is done. -/
def TapSt.after (x : TapSt) (data : Word) : TapSt := { x with ir := 8, run := none, data := data, done := true, err := false }

/-- An access of the DBG block is made at once. -/
def State.TapFree (s : State) : Prop := s.pclkOn = true ∧ s.tap.run = none

end Sys2Proof.Machine

/-- R355 to R359, R376, R377: the TAP's instructions, EXTEST and SAMPLE with the levels that the boundary cells capture and drive;
DBGACC reads and writes the DBG block, waits without PCLK, where a second access is lost, and fails in HOLD; the message words and
who may write and read them; fuses are programmed with the key and by an attached debugger only, and show their outcome. The
model's readings in it: log entries 25 and 103. -/
def Obligations.TapAndFuses : Prop :=
  ∀ (s : State) (m : Master) (cells : List Bool) (code : BitVec 5) (wr : Bool) (i : Byte) (v : Word),
    let free := s.TapFree
    let attached := s.flag F.DBG_CTRL_ATTACH
    let d2c := s.flag F.DBG_CHAN_STATUS_D2CFULL
    let c2d := s.flag F.DBG_CHAN_STATUS_C2DFULL
    let chan := fun (a : Nat) => a = R.DBG_CHAN_D2C ∨ a = R.DBG_CHAN_C2D ∨ a = R.DBG_CHAN_STATUS
    let key := bitsOf v 24 8 = 0x5A
    let kh := bitOf v 0
    let ar := bitOf v 1
    let kv := s.flag F.CFG_FUSE_KEYV
    let may := attached = true ∧ s.flag F.DBG_FUSE_STATUS_BUSY = false ∧ s.mode.emul = none ∧ ¬ (kh = true ∧ kv = true) ∧
      (ar = true → kv = true ∨ kh = true)
    (Runs .tapReset s fun t => t = { s with tap := { s.tap with ir := 2 } }) ∧
    (let u := { s with tap := { s.tap with ir := 0 } }
     RunsUpToEvents .extest s fun t => t = { s with tap := { s.tap with ir := 0, captured := t.tap.captured } } ∧
      t.tap.captured.length = 145 ∧ ∀ p, p < 96 → t.tap.captured.getD p false = u.padLevel p ∧
        (s.pins.resetLow = true → p < s.tap.cells.length → t.padLevel p = s.tap.cells.getD p false)) ∧
    (Runs (.samplePreload cells) s fun t =>
      t = { s with tap := { s.tap with ir := 1, cells := cells, captured := t.tap.captured } } ∧
      t.tap.captured.length = 145 ∧ (∀ p, p < 96 → t.tap.captured.getD p false = s.padLevel p) ∧
      t.tap.captured.getD 98 false = s.mode.vsel) ∧
    (Runs .idcode s fun t => t = { s with tap := { s.tap with ir := 2 }, resp := .data 0x11024B5B }) ∧
    (code ≠ 0 → code ≠ 1 → code ≠ 2 → code ≠ 8 → Runs (.bypass code) s fun t => t = { s with tap := { s.tap with ir := code } }) ∧
    (free → i ≠ 11 → i ≠ 5 → Runs (.dbgacc false i v) s fun t =>
      t = { s with tap := s.tap.after (s.dbgValue (4 * i.toNat)) }) ∧
    (free → i = 7 → Runs (.dbgacc true i v) s fun t => t.rd R.DBG_MEM_ADDR &&& 0xFFFFFFFC = v &&& 0xFFFFFFFC ∧
      t.tap = s.tap.after s.tap.data ∧
      t = { s with regs := t.regs, tap := t.tap } ∧ SameRegs (fun a => a = R.DBG_MEM_ADDR) s t) ∧
    ((s.modeNow = 4 ∨ s.modeNow = 0) → s.pclkOn = false → Runs (.dbgacc wr i v) s fun t =>
      t = { s with tap := { s.tap with ir := 8, run := none, data := 0, done := true, err := true } }) ∧
    (s.modeNow ≠ 4 → s.modeNow ≠ 0 → s.pclkOn = false → s.tap.run = none → Runs (.dbgacc wr i v) s fun t =>
      t = { s with tap := { s.tap with ir := 8, run := some (wr, i.toNat, v), done := false, err := false } }) ∧
    (s.modeNow ≠ 4 → s.modeNow ≠ 0 → s.pclkOn = false → s.tap.run.isSome = true → Runs (.dbgacc wr i v) s fun t =>
      t.flag F.DBG_STATUS_OVERRUN = true ∧ t.tap.run = s.tap.run ∧ SameMem s t ∧ SameRegs (fun a => a = R.DBG_STATUS) s t) ∧
    (free → Runs (.dbgChanD2cWrite .debug v) s fun t => t.rd R.DBG_CHAN_D2C = v ∧
      t.flag F.DBG_CHAN_STATUS_D2CFULL = true ∧ (d2c = true → t.flag F.DBG_CHAN_STATUS_D2COVR = true) ∧ SameRegs chan s t) ∧
    (s.pclkOn = true → m = .core → Runs (.dbgChanD2cWrite m v) s fun t => t = { s with resp := .none }) ∧
    (s.pclkOn = true → m = .core → Runs (.dbgChanD2cRead m) s fun t => t.resp = .data (s.rd R.DBG_CHAN_D2C) ∧
      t.flag F.DBG_CHAN_STATUS_D2CFULL = false ∧ OnlyRegsResp (fun a => a = R.DBG_CHAN_STATUS) s t) ∧
    (free → Runs (.dbgChanD2cRead .debug) s fun t => t = { s with tap := s.tap.after (s.rd R.DBG_CHAN_D2C) }) ∧
    (s.pclkOn = true → m = .core → Runs (.dbgChanC2dWrite m v) s fun t => t.rd R.DBG_CHAN_C2D = v ∧
      t.flag F.DBG_CHAN_STATUS_C2DFULL = true ∧ (c2d = true → t.flag F.DBG_CHAN_STATUS_C2DOVR = true) ∧
      OnlyRegsResp chan s t) ∧
    (free → Runs (.dbgChanC2dRead .debug) s fun t => t.tap = s.tap.after (s.rd R.DBG_CHAN_C2D) ∧
      t.flag F.DBG_CHAN_STATUS_C2DFULL = false ∧ SameRegs chan s t) ∧
    (free → key → may → Runs (.fuseProgram v) s fun t => t.dbg.fuse = some (kh, ar) ∧
      t.flag F.DBG_FUSE_STATUS_BUSY = true ∧ t.fuses = s.fuses ∧ SameRegs (fun a => a = R.DBG_FUSE_STATUS) s t) ∧
    (free → key → ¬ may → Runs (.fuseProgram v) s fun t => t.flag F.DBG_FUSE_STATUS_REFUSED = true ∧ t.dbg = s.dbg ∧
      t.fuses = s.fuses ∧ SameRegs (fun a => a = R.DBG_FUSE_STATUS) s t) ∧
    (free → ¬ key → Runs (.fuseProgram v) s fun t => t = { s with tap := s.tap.after s.tap.data }) ∧
    (∀ k a, s.dbg.fuse = some (k, a) → s.fuses.keyv = false → Runs (.fuseProgramDone true) s fun t =>
      t.fuses.keyv = k ∧ t.fuses.authreq = (s.fuses.authreq || a) ∧ t.fuses.hash = (if k then s.fuseHash else s.fuses.hash) ∧
      t.flag F.DBG_FUSE_STATUS_DONE = true ∧ t.flag F.DBG_FUSE_STATUS_BUSY = false ∧ t.dbg.fuse = none ∧
      SameRegs (fun a => a = R.DBG_FUSE_STATUS) s t) ∧
    (∀ k a, s.dbg.fuse = some (k, a) → Runs (.fuseProgramDone false) s fun t => t.flag F.DBG_FUSE_STATUS_FAIL = true ∧
      t.flag F.DBG_FUSE_STATUS_BUSY = false ∧ t.dbg.fuse = none ∧ (k = false → t.fuses.hash = s.fuses.hash))

/-- R360 to R363, R366 to R368: attaching; detaching, which lets every context go on and clears patches and comparators; HALT of
the control core at its next boundary, which ends its WAIT (R114), RESUME, and STEP, which executes one instruction and halts
again; the codes of a refused command; registers of a halted context read and written; and a memory access, made, refused or timed
out. The model's readings in it: log entries 101 and 102. -/
def Obligations.DebugControl : Prop :=
  ∀ (s : State) (c : Ctx) (u : UnitId) (v w : Word) (key : Nat) (bs : List Byte) (rd rs : RegNo) (imm : BitVec 16),
    let free := s.TapFree
    let attached := s.flag F.DBG_CTRL_ATTACH
    let x := s.cc
    let result := fun (t : State) => t.get F.DBG_CMD_STATUS_RESULT
    let idx := s.rd R.DBG_REG_IDX
    let ended := fun (t : State) => t.dbg.access = none ∧ t.flag F.DBG_MEM_CTRL_BUSY = false
    let addr := (s.rd R.DBG_MEM_ADDR).toNat
    let quiet := x.haltReq = none ∧ x.asleep = false ∧ s.boot.phase ≠ .heldAtReset
    let y := { x with halted := false, reason := 0, haltReq := none }
    (free → attached = false → bitOf v 24 = false → Runs (.debugAttach v) s fun t =>
      t.flag F.DBG_CTRL_ATTACH = true ∧ t.cc = s.cc ∧ t.eng = s.eng ∧ SameMem s t ∧
      SameRegs (fun a => a = R.DBG_CTRL) s t) ∧
    (free → attached = true → bitOf v 24 = false → s.mode.emul = none → s.boot.phase ≠ .heldAtReset →
      Runs (.debugDetach v) s fun t => t.flag F.DBG_CTRL_ATTACH = false ∧ t.cc.halted = false ∧
        (∀ e : EngineNo, (t.engine e).halted = false) ∧ (∀ i, i < 8 → t.flag (F.DBG_PATCH_ADDR_EN i) = false) ∧
        ∀ k, k < 4 → t.flag (F.DBG_CMP_CTRL_EN k) = false) ∧
    (free → attached = false → ∀ i, i = .debugHalt true u ∨ i = .debugResume true u ∨ i = .debugStep true u →
      Runs i s fun t => result t = 3 ∧ t.cc = s.cc ∧ t.eng = s.eng) ∧
    (free → attached = true → s.unit? u.toNat = none → ∀ i, i = .debugHalt false u ∨ i = .debugResume false u ∨
      i = .debugStep false u → Runs i s fun t => result t = 1 ∧ t.cc = s.cc ∧ t.eng = s.eng) ∧
    (free → attached = true → x.halted = false → ∀ i, i = .debugResume true u ∨ i = .debugStep true u →
      Runs i s fun t => result t = 2 ∧ t.cc = s.cc ∧ t.eng = s.eng) ∧
    (free → attached = true → x.halted = false → x.asleep = false → x.parked = false → Runs (.debugHalt true u) s fun t =>
      result t = 0 ∧ t.cc = { x with haltReq := some 1 } ∧ t.flag F.DBG_CMD_STATUS_BUSY = true ∧ t.eng = s.eng ∧ SameMem s t) ∧
    (free → attached = true → x.halted = false → x.asleep = true → Runs (.debugHalt true u) s fun t => result t = 0 ∧
      t.cc.halted = true ∧ t.cc.asleep = false ∧ t.cc.reason = 1 ∧ t.cc.pc = x.pc ∧ t.eng = s.eng ∧ SameMem s t) ∧
    (∀ why, (s.core c).haltReq = some why → (s.core c).stalled = none → Runs (.haltTakesEffect c) s fun t =>
      (t.core c).halted = true ∧ (t.core c).reason = why ∧ (t.core c).haltReq = none ∧ (t.core c).resv = none ∧
      (t.core c).pc = (s.core c).pc ∧ SameCtxs c s t ∧ SameMem s t ∧ SameRegs (fun a => a = R.DBG_CMD_STATUS) s t) ∧
    (free → attached = true → x.halted = true → quiet → Runs (.debugResume true u) s fun t => result t = 0 ∧
      t.cc = { x with halted := false, reason := 0, haltReq := none, ready := max x.ready s.now } ∧ SameMem s t) ∧
    (free → attached = true → x.halted = true → quiet → x.started = true → x.parked = false → x.lockup = false →
      x.stalled = none → s.clocked .cc = true → fetchable .cc x.pc = true → s.flag F.DBG_CTRL_STEPIE = false →
      (∀ k, k < 4 → s.flag (F.DBG_CMP_CTRL_EN k) = false) → (s.eccBytes x.pc.toNat 4).2 = .clean →
      decodeInsn .cc (s.fetchWord .cc) = some (.addi .cc rd rs imm) → Runs (.debugStep true u) s fun t =>
        result t = 0 ∧ x.Writes t.cc rd (x.gr rs + imm.signExtend 32) ∧ y.GoesOn t.cc ∧ t.cc.halted = true ∧
        t.cc.reason = 4 ∧ t.cc.haltReq = none ∧ SameMem s t) ∧
    (free → s.dbgCtx = c → (s.core c).halted = true → bitOf idx 30 = false →
      (Runs .dbgRegRead s fun t => t = { s with tap := s.tap.after ((s.core c).gr (BitVec.ofNat 5 (bitsOf idx 0 5))) }) ∧
      (Runs (.dbgRegWrite v) s fun t => (s.core c).Writes (t.core c) (BitVec.ofNat 5 (bitsOf idx 0 5)) v ∧ SameMem s t ∧
        SameCtxs c s t ∧ (t.core c).pc = (s.core c).pc ∧ SameRegs (fun _ => False) s t)) ∧
    (free → s.dbgCtx = .cc → x.halted = true → bitOf idx 30 = true → bitsOf idx 0 5 = 1 → Runs (.dbgRegWrite v) s fun t =>
      t.cc = { x with status := v &&& 0xF0000F07 } ∧ t.eng = s.eng ∧ SameMem s t ∧ SameRegs (fun _ => False) s t) ∧
    (free → s.dbgCtx = c → (s.core c).halted = false → ∀ i, i = .dbgRegRead ∨ i = .dbgRegWrite v → Runs i s fun t =>
      t.flag F.DBG_STATUS_ACCERR = true ∧ t.cc = s.cc ∧ t.eng = s.eng ∧ SameRegs (fun a => a = R.DBG_STATUS) s t) ∧
    (free → s.dbg.access = none → Runs (.dbgMemWrite v) s fun t => t.dbg.access = some (some v) ∧
      t.flag F.DBG_MEM_CTRL_BUSY = true ∧ SameMem s t ∧ SameRegs (fun a => a = R.DBG_MEM_CTRL) s t) ∧
    (free → s.dbg.access = none → Runs (.dbgMemRead v) s fun t => t.dbg.access = some none ∧
      t.flag F.DBG_MEM_CTRL_BUSY = true ∧ SameMem s t ∧ SameRegs (fun a => a = R.DBG_MEM_CTRL) s t) ∧
    (s.dbg.access = some none → s.get F.DBG_MEM_CTRL_SPACE = 0 → s.mapRead .debug 7 0x17 2 addr 4 = (some (bs, .clean), s) →
      s.flag F.DBG_MEM_CTRL_AINC = true → Runs .dbgMemDone s fun t => ended t ∧ t.dbg.memData = BitVec.ofNat 32 (leNat bs) ∧
        t.flag F.DBG_MEM_CTRL_ECC = false ∧ t.rd R.DBG_MEM_ADDR = s.rd R.DBG_MEM_ADDR + 4 ∧ SameMem s t ∧
        SameRegs (fun a => a = R.DBG_MEM_CTRL ∨ a = R.DBG_MEM_ADDR) s t) ∧
    (s.dbg.access = some (some w) → s.get F.DBG_MEM_CTRL_SPACE = 0 → s.mapWhere .debug addr 4 true = .mem key →
      Runs .dbgMemDone s fun t => ended t ∧ t.rawWord key = w ∧ (∀ j, (j < key ∨ key + 4 ≤ j) → t.rawByte j = s.rawByte j) ∧
        t.flag F.DBG_STATUS_ACCERR = s.flag F.DBG_STATUS_ACCERR) ∧
    (s.dbg.access = some (some w) → s.get F.DBG_MEM_CTRL_SPACE = 0 → s.mapWhere .debug addr 4 true = .refused 1 0 0 →
      Runs .dbgMemDone s fun t => ended t ∧ t.flag F.DBG_STATUS_ACCERR = true ∧ SameMem s t) ∧
    (s.dbg.access.isSome = true → Runs .dbgMemTimeout s fun t => ended t ∧ t.flag F.DBG_STATUS_ACCERR = true ∧ SameMem s t)

/-! ### The block as a whole -/

/-- A step takes the command at the front of the queue and runs it with the queue's rest; with an empty queue it lets one PCLK
pass, which is the model's choice (log entry 4): time goes on by 24 VCO periods and the PTP clock by PTP_INC (R336), the filters of
the request lines count (R297), the event lines look at their pins (R350), and nothing else moves while the watchdog is off. -/
def Obligations.CommandQueue : Prop :=
  ∀ (s : State) (c : Instr) (cs : List Instr),
    (s.pending = c :: cs → step s = exec c { s with pending := cs }) ∧
    (s.pending = [] → s.flag F.WDT_CTRL_EN = false → ∃ t, step s = .next t ∧ t.now = s.now + 24 ∧
      t = { s with
        now := t.now, ptp := t.ptp, mode := t.mode, icuFilt := t.icuFilt, regs := t.regs
        pins := { s.pins with evtSeen := t.pins.evtSeen, evtInit := t.pins.evtInit } } ∧
      SameRegs (fun a => a = R.PIN_EVT_STATUS) s t ∧
      (s.pclkOn = false → t = { s with now := t.now, mode := t.mode }) ∧
      t.mode = { s.mode with lf := t.mode.lf, lfPhase := t.mode.lfPhase } ∧
      (s.mode.lfPhase < 100000000 →
        t.mode.lf * 100000000 + t.mode.lfPhase = s.mode.lf * 100000000 + s.mode.lfPhase + 32768) ∧
      (s.pclkOn = true → s.ptp.ns < 1000000000 → s.ptp.sec < 2 ^ 47 →
        (t.ptp.sec * 1000000000 + t.ptp.ns) * 2 ^ 24 + t.ptp.frac =
          (s.ptp.sec * 1000000000 + s.ptp.ns) * 2 ^ 24 + s.ptp.frac + (s.rd R.ETH_0_PTP_INC).toNat) ∧
      (s.pclkOn = false → t.ptp = s.ptp))

namespace Sys2Proof.Machine

/-- `n` registers from address a on, d apart, with one reset value. -/
def resetRow (a d n v : Nat) : List (Nat × Nat) := (List.range n).map fun i => (a + d * i, v)

/-- Registers of one head, at base a, with a reset value other than zero (R158, R181, R199). -/
def headResets (a : Nat) : List (Nat × Nat) :=
  [(a, 0x202), (a + 0x344, 3), (a + 0x500, 0x03000000), (a + 0x510, 0xFA)] ++ resetRow (a + 0x100) 0x40 8 1 ++
  resetRow (a + 0x114) 0x40 8 0xFF ++ resetRow (a + 0x61C) 0x20 16 0x00F00000

/-- The registers whose reset value is not zero, with the value, as the maps of the chapters give them (R54, R158, R181, R199, R226,
R246, R259, R295, R304, R318 to R320, R338 to R341, R354). -/
def resetValues : List (Nat × Nat) :=
  [(0x40000000, 1), (0x40000030, 0x80000414), (0x40000034, 0xFFFF), (0x40000050, 0x000A7A6E), (0x40000064, 0xC8),
   (0x40020000, 3), (0x40030018, 0x400), (0x40030184, 0x10000000), (0x40030188, 0x10000000), (0x4005001C, 0x20000)] ++
  resetRow 0x40020600 8 4 2 ++ resetRow 0x40030040 4 16 0x10 ++
  headResets 0x40100000 ++ headResets 0x40110000 ++ headResets 0x40120000 ++ headResets 0x40130000 ++
  [(0x40080108, 0x80000000)] ++ resetRow 0x40080020 4 3 0x100 ++ resetRow 0x40080040 4 16 0x80000000 ++
  resetRow 0x40080204 0x40 4 0x8000 ++ resetRow 0x40080208 0x40 4 0x007FFFFF ++ resetRow 0x40080210 0x40 4 0x10000000 ++
  resetRow 0x40080224 0x40 4 0x10000000 ++
  resetRow 0x400A0000 0x100 8 0x003F3F00 ++ resetRow 0x400A0010 0x100 8 0xFFFFFFFF ++
  [(0x400B000C, 0x6000), (0x400B0010, 0x8000), (0x400C0000, 0x003F010C)] ++
  [(0x400D0000, 1), (0x400D000C, 0x10241F5B)] ++ resetRow 0x400D0100 4 32 0xFF ++
  resetRow 0x400E0000 0x10000 2 4 ++ resetRow 0x400E0044 0x10000 2 1 ++ resetRow 0x400E0054 0x10000 2 1 ++
  [(0x400E0100, 0x0A000000), (0x40140000, 0x80000000), (0x40140010, 0xA)] ++
  resetRow 0x40160010 0x100 2 0x360 ++ resetRow 0x40161000 0x100 2 0x700 ++ resetRow 0x40161010 0x100 2 4 ++
  resetRow 0x40162014 0x100 2 0x2710 ++ resetRow 0x40151000 4 94 0x410 ++ resetRow 0x40151178 4 2 0x400

/-- Registers of every block whose reset value is zero, as the maps give it: controls, status words and events, and the
coefficients that are not the first of a section. -/
def zeroAtReset : List Nat :=
  [0x40000004, 0x40000024, 0x40030004, 0x40030010, 0x40030020, 0x40030024, 0x40030028, 0x40030180, 0x400301C0, 0x40050000,
   0x40080000, 0x400B0000, 0x40140008] ++
  (((List.range 4).flatMap fun b => [1, 2, 3, 4, 6, 7, 8, 9].map fun i => 0x40080210 + 0x40 * b + 4 * i)) ++
  ((List.range 4).flatMap fun h => [0x40100300 + 0x10000 * h, 0x40100304 + 0x10000 * h, 0x40100504 + 0x10000 * h]) ++
  ((List.range 8).flatMap fun t => [0x400A0004 + 0x100 * t, 0x400A0014 + 0x100 * t]) ++
  ((List.range 8).map fun n => 0x40060100 + 0x40 * n) ++ [0x40070000, 0x40070100]

end Sys2Proof.Machine

/-- R79, R120, R225, R229: the machine after a power-on reset: nothing waits, the mode is BOOT, the cause is POR alone, the
registers named hold the values that the maps give them, no context runs, and memory and registers are in canonical form. That
memory reads 0 is the model's choice (log entry 1), and so is what the board keeps over a power-on (log entry 108). -/
def Obligations.PowerOnState : Prop :=
  let s := State.reset
  s.pending = [] ∧ s.modeNow = 1 ∧ s.boot.phase = .inReset ∧ s.rd R.SYS_RESET_CAUSE = 1 ∧ s.pclkOn = false ∧
  (∀ a v, (a, v) ∈ resetValues → s.rd a = BitVec.ofNat 32 v) ∧ (∀ a, a ∈ zeroAtReset → s.rd a = 0) ∧
  s.regValue 0x40090004 = 0x80000000 ∧
  s.cc.status = 2 ∧ (∀ e, (s.engine e).status = 2 ∧ (s.engine e).parked = true) ∧ (∀ c, s.runnable c = false) ∧
  (∀ k, 0x10000 ≤ k → s.rawByte k = 0) ∧
  (∀ h, h < 4 → (s.head h).phase = .stopped) ∧ s.wf = true

/-- Every step keeps the memory and the register file in canonical form: addresses strictly rising, no entry equal to what an
unlisted address reads as. -/
def Obligations.FormsKept : Prop := ∀ s t : State, s.wf = true → step s = .next t → t.wf = true

namespace Sys2Proof.Machine

/-- The context that executes an instruction; a command that is no instruction has none. -/
def insnCtx : Instr → Option Ctx
  | .or c .. | .and c .. | .xor c .. | .andn c .. | .add c .. | .sub c .. | .adc c .. | .sbc c .. | .slt c ..
  | .sltu c .. | .min c .. | .max c .. | .minu c .. | .maxu c .. | .sll c .. | .srl c .. | .sra c .. | .ror c ..
  | .bext c .. | .neg c .. | .abs c .. | .clz c .. | .sextb c .. | .sexth c .. | .slli c .. | .srli c .. | .srai c ..
  | .rori c .. | .mul c .. | .mulu c .. | .mac c .. | .macu c .. | .div c .. | .divu c .. | .addi c .. | .andi c ..
  | .ori c .. | .xori c .. | .slti c .. | .sltiu c .. | .addis c .. | .lb c .. | .lbu c .. | .lh c .. | .lhu c ..
  | .lw c .. | .ld c .. | .ll c .. | .sb c .. | .sh c .. | .sw c .. | .sd c .. | .sc c .. | .lui c .. | .beq c ..
  | .bne c .. | .blt c .. | .bge c .. | .bltu c .. | .bgeu c .. | .bf c .. | .j c .. | .call c .. | .loop c ..
  | .loopi c .. | .lbua c .. | .lhua c .. | .lwa c .. | .sba c .. | .sha c .. | .swa c .. | .lwsp c .. | .swsp c ..
  | .adjsp c .. | .paddub c .. | .psubub c .. | .paddh c .. | .psubh c .. | .pmulh c .. | .packub c .. | .mula c ..
  | .cov c .. | .blend c .. | .blendp c .. | .rsqs c .. | .rsqe c .. | .tfetch c .. | .stl c .. | .stl8 c ..
  | .palK c .. | .brk c .. | .wait c .. | .syscall c .. | .sysret c .. | .eret c .. | .barp c .. | .ret c .. | .jr c ..
  | .callr c .. | .push c .. | .complete c .. | .pop c .. | .mfs c .. | .mts c .. => some c
  | _ => none

end Sys2Proof.Machine

/-- R82 to R84, R91, R92, R97, R102, R108, R112: every instruction that is legal in its context is what its word decodes to,
with every operand; a word that decodes is the word of the instruction it decodes to, so no bit of it is left out; and words
written out from the tables mean what the tables say. -/
def Obligations.InstructionWords : Prop :=
  (∀ i c, insnCtx i = some c → legalInsn i = true → decodeInsn c (encodeInsn i) = some i) ∧
  (∀ c w i, decodeInsn c w = some i → insnCtx i = some c ∧ legalInsn i = true ∧ encodeInsn i = w) ∧
  ∀ c : Ctx,
    decodeInsn c 0b00000000000000000000000000000000 = some (.or c 0 0 0 false) ∧
    decodeInsn c 0b11111100000000000000000000000000 = some (.brk c) ∧
    decodeInsn c 0b00000000001000100001110000000100 = some (.add c 1 2 3 true) ∧
    decodeInsn c 0b00000100011001001111111111111111 = some (.addi c 3 4 0xFFFF) ∧
    decodeInsn c 0b01000000001000101111111111111110 = some (.beq c 1 2 0xFFFE) ∧
    decodeInsn c 0b01100000000000000000000000000001 = some (.j c 1) ∧
    decodeInsn c 0b10010000101001100000000000001000 = some (.lw c 5 6 8) ∧
    decodeInsn c 0b11110000001000100001100000001010 = some (.blend c 1 2 3) ∧
    decodeInsn c 0b11111100101000000010000000000110 = some (.mfs c 5 4) ∧
    decodeInsn c 0b01110000000000000000000000000000 = none
end

