-- ==== Sys2Proof/Laws/Bits.lean ====
section
/-! SUPPORT. Laws of the bit fields. -/

namespace Sys2Proof.Machine

theorem testBit_bitsOf (w : Word) (lo n i : Nat) :
    (bitsOf w lo n).testBit i = (decide (i < n) && w.getLsbD (lo + i)) := by
  unfold bitsOf
  rw [Nat.testBit_mod_two_pow, Nat.testBit_shiftRight]
  rfl

theorem getLsbD_setBits (w : Word) (lo n v i : Nat) :
    (setBits w lo n v).getLsbD i =
      (decide (i < 32) && if lo ≤ i ∧ i < lo + n then v.testBit (i - lo) else w.getLsbD i) := by
  simp only [setBits, BitVec.getLsbD_or, BitVec.getLsbD_and, BitVec.getLsbD_not, BitVec.getLsbD_ofNat,
    Nat.testBit_shiftLeft, Nat.testBit_two_pow_sub_one]
  by_cases h : i < 32
  · by_cases h1 : lo ≤ i
    · by_cases h2 : i < lo + n
      · have : i - lo < n := by omega
        simp [h, h1, h2, this]
      · have : ¬ i - lo < n := by omega
        simp [h, h1, h2, this]
    · simp [h, h1]
  · have : w.getLsbD i = false := BitVec.getLsbD_of_ge w i (by omega)
    simp [h, this]

/-- A field reads what was put into it, modulo its width. -/
theorem bitsOf_setBits_same (w : Word) {lo n : Nat} (v : Nat) (h : lo + n ≤ 32) :
    bitsOf (setBits w lo n v) lo n = v % 2 ^ n := by
  apply Nat.eq_of_testBit_eq
  intro i
  rw [testBit_bitsOf, getLsbD_setBits, Nat.testBit_mod_two_pow]
  by_cases hi : i < n
  · have h1 : lo + i < 32 := by omega
    simp [hi, h1]
  · simp [hi]

/-- Putting a field leaves every field that shares no bit with it. -/
theorem bitsOf_setBits_disj (w : Word) {lo n lo' n' : Nat} (v : Nat) (h : lo' + n' ≤ lo ∨ lo + n ≤ lo') :
    bitsOf (setBits w lo n v) lo' n' = bitsOf w lo' n' := by
  apply Nat.eq_of_testBit_eq
  intro i
  rw [testBit_bitsOf, testBit_bitsOf, getLsbD_setBits]
  by_cases hi : i < n'
  · have : ¬ (lo ≤ lo' + i ∧ lo' + i < lo + n) := by omega
    rw [if_neg this]
    by_cases h32 : lo' + i < 32
    · simp [h32]
    · have : w.getLsbD (lo' + i) = false := BitVec.getLsbD_of_ge w _ (by omega)
      simp [this]
  · simp [hi]

/-- Adding a bit that is not set changes that bit alone. -/
theorem testBit_add_two_pow {m i : Nat} (j : Nat) (h : m.testBit i = false) :
    (m + 2 ^ i).testBit j = (decide (j = i) || m.testBit j) := by
  induction i generalizing m j with
  | zero =>
    have hm : m % 2 = 0 := by simpa [Nat.testBit_zero] using h
    cases j with
    | zero => simp [Nat.testBit_zero, Nat.add_mod, hm]
    | succ j => simp [Nat.testBit_succ, show (m + 1) / 2 = m / 2 by omega]
  | succ i ih =>
    have h2 : (m / 2).testBit i = false := by rwa [Nat.testBit_succ] at h
    cases j with
    | zero => simp [Nat.testBit_zero, Nat.pow_succ]
    | succ j =>
      rw [Nat.testBit_succ, show (m + 2 ^ (i + 1)) / 2 = m / 2 + 2 ^ i by rw [Nat.pow_succ]; omega, ih j h2, Nat.testBit_succ]
      simp

theorem testBit_natSetBit_true (m i j : Nat) : (natSetBit m i true).testBit j = (decide (j = i) || m.testBit j) := by
  unfold natSetBit
  by_cases h : m.testBit i = true
  · by_cases hj : j = i <;> simp [h, hj]
  · simp [h, testBit_add_two_pow j (by simpa using h)]

theorem bitsOf_lt (w : Word) (lo n : Nat) : bitsOf w lo n < 2 ^ n := Nat.mod_lt _ (Nat.two_pow_pos n)

end Sys2Proof.Machine
end

