-- ==== Sys2Proof/Laws/Tab.lean ====
section
/-! SUPPORT. Laws of the sparse tables. Reading after writing holds of every table; the canonical form is kept by every
table operation. -/

namespace Sys2Proof.Machine

variable {α : Type}

@[simp] theorem tabGet_nil (d : Nat → α) (k : Nat) : tabGet d [] k = d k := rfl

theorem tabGet_keep (d : Nat → α) (p : Nat → Bool) (t : Tab α) (k : Nat) :
    tabGet d (tabKeep p t) k = if p k then tabGet d t k else d k := by
  induction t with
  | nil => simp [tabKeep]
  | cons e t ih =>
    obtain ⟨j, a⟩ := e
    by_cases h : p j <;> by_cases hk : k = j <;> simp_all [tabKeep, tabGet]

theorem tabGet_put (d : Nat → α) (t : Tab α) (k j : Nat) (v : α) :
    tabGet d (tabPut t k v) j = if j = k then v else tabGet d t j := by
  induction t with
  | nil => simp [tabPut, tabGet]
  | cons e t ih =>
    obtain ⟨i, a⟩ := e
    by_cases h1 : k = i
    · subst h1; simp only [tabPut, tabGet, if_true]; split <;> simp_all
    · by_cases h2 : k < i
      · simp [tabPut, tabGet, h1, h2]
      · simp only [tabPut, h1, h2, if_false, tabGet, ih]
        by_cases hj : j = i <;> by_cases hk : j = k <;> simp_all

/-- What a table reads after a write, at every key. -/
theorem tabGet_set [DecidableEq α] (d : Nat → α) (t : Tab α) (k j : Nat) (v : α) :
    tabGet d (tabSet d t k v) j = if j = k then v else tabGet d t j := by
  unfold tabSet
  split
  · rename_i h
    rw [tabGet_keep]
    by_cases hj : j = k
    · subst hj; simp [h]
    · simp [hj]
  · exact tabGet_put d t k j v

@[simp] theorem tabGet_set_same [DecidableEq α] (d : Nat → α) (t : Tab α) (k : Nat) (v : α) :
    tabGet d (tabSet d t k v) k = v := by simp [tabGet_set]

theorem tabGet_set_ne [DecidableEq α] (d : Nat → α) (t : Tab α) {k j : Nat} (v : α) (h : j ≠ k) :
    tabGet d (tabSet d t k v) j = tabGet d t j := by simp [tabGet_set, h]

/-! ### The canonical form -/

theorem tabWfFrom_mono [DecidableEq α] (d : Nat → α) {lo lo' : Nat} (h : lo' ≤ lo) {t : Tab α}
    (ht : tabWfFrom d lo t) : tabWfFrom d lo' t := by
  cases t with
  | nil => rfl
  | cons e t => simp_all [tabWfFrom]; omega

theorem tabWfFrom_keep [DecidableEq α] (d : Nat → α) (p : Nat → Bool) (t : Tab α) :
    ∀ lo, tabWfFrom d lo t → tabWfFrom d lo (tabKeep p t) := by
  induction t with
  | nil => intro _ _; rfl
  | cons e t ih =>
    intro lo h
    simp only [tabWfFrom, Bool.and_eq_true, decide_eq_true_eq] at h
    simp only [tabKeep]
    split
    · simp only [tabWfFrom, Bool.and_eq_true, decide_eq_true_eq]
      exact ⟨h.1, ih _ h.2⟩
    · exact tabWfFrom_mono d (by omega) (ih _ h.2)

theorem tabWfFrom_put [DecidableEq α] (d : Nat → α) (k : Nat) (v : α) (hv : v ≠ d k) (t : Tab α) :
    ∀ lo, lo ≤ k → tabWfFrom d lo t → tabWfFrom d lo (tabPut t k v) := by
  induction t with
  | nil => intro lo hl _; simp [tabPut, tabWfFrom, hl, hv]
  | cons e t ih =>
    obtain ⟨j, a⟩ := e
    intro lo hl h
    simp only [tabWfFrom, Bool.and_eq_true, decide_eq_true_eq] at h
    obtain ⟨⟨h1, h2⟩, h3⟩ := h
    by_cases e1 : k = j
    · subst e1; simp [tabPut, tabWfFrom, hl, hv, h3]
    · by_cases e2 : k < j
      · simp only [tabPut, e1, e2, if_false, if_true, tabWfFrom, Bool.and_eq_true, decide_eq_true_eq]
        exact ⟨⟨hl, by simpa using hv⟩, ⟨by omega, h2⟩, h3⟩
      · simp only [tabPut, e1, e2, if_false, tabWfFrom, Bool.and_eq_true, decide_eq_true_eq]
        exact ⟨⟨h1, h2⟩, ih _ (by omega) h3⟩

/-- Writing keeps the canonical form, from any lowest key on. -/
theorem tabWfFrom_set [DecidableEq α] (d : Nat → α) {lo k : Nat} (hl : lo ≤ k) (v : α) {t : Tab α}
    (h : tabWfFrom d lo t) : tabWfFrom d lo (tabSet d t k v) := by
  unfold tabSet
  split
  · exact tabWfFrom_keep d _ t lo h
  · exact tabWfFrom_put d k v ‹_› t lo hl h

theorem tabWf_set [DecidableEq α] (d : Nat → α) (k : Nat) (v : α) {t : Tab α} (h : tabWf d t) :
    tabWf d (tabSet d t k v) := tabWfFrom_set d (Nat.zero_le k) v h

theorem tabWf_keep [DecidableEq α] (d : Nat → α) (p : Nat → Bool) {t : Tab α} (h : tabWf d t) :
    tabWf d (tabKeep p t) := tabWfFrom_keep d p t 0 h

theorem tabWf_nil [DecidableEq α] (d : Nat → α) : tabWf d [] := rfl

end Sys2Proof.Machine
end

