-- ==== Sys2Proof/Laws/State.lean ====
section
/-! SUPPORT. What each update of the state leaves alone: one lemma per field per update. -/

namespace Sys2Proof.Machine

variable (s : State)

/-! ### wr -/

@[simp] theorem State.wr_pending (a : Nat) (v : Word) : (s.wr a v).pending = s.pending := rfl
@[simp] theorem State.wr_now (a : Nat) (v : Word) : (s.wr a v).now = s.now := rfl
@[simp] theorem State.wr_freeCtr (a : Nat) (v : Word) : (s.wr a v).freeCtr = s.freeCtr := rfl
@[simp] theorem State.wr_mem (a : Nat) (v : Word) : (s.wr a v).mem = s.mem := rfl
@[simp] theorem State.wr_ecc (a : Nat) (v : Word) : (s.wr a v).ecc = s.ecc := rfl
@[simp] theorem State.wr_undef (a : Nat) (v : Word) : (s.wr a v).undef = s.undef := rfl
@[simp] theorem State.wr_cycBase (a : Nat) (v : Word) : (s.wr a v).cycBase = s.cycBase := rfl
@[simp] theorem State.wr_cycT0 (a : Nat) (v : Word) : (s.wr a v).cycT0 = s.cycT0 := rfl
@[simp] theorem State.wr_cc (a : Nat) (v : Word) : (s.wr a v).cc = s.cc := rfl
@[simp] theorem State.wr_eng (a : Nat) (v : Word) : (s.wr a v).eng = s.eng := rfl
@[simp] theorem State.wr_phys (a : Nat) (v : Word) : (s.wr a v).phys = s.phys := rfl
@[simp] theorem State.wr_units (a : Nat) (v : Word) : (s.wr a v).units = s.units := rfl
@[simp] theorem State.wr_nextTid (a : Nat) (v : Word) : (s.wr a v).nextTid = s.nextTid := rfl
@[simp] theorem State.wr_heads (a : Nat) (v : Word) : (s.wr a v).heads = s.heads := rfl
@[simp] theorem State.wr_boot (a : Nat) (v : Word) : (s.wr a v).boot = s.boot := rfl
@[simp] theorem State.wr_prof (a : Nat) (v : Word) : (s.wr a v).prof = s.prof := rfl
@[simp] theorem State.wr_mode (a : Nat) (v : Word) : (s.wr a v).mode = s.mode := rfl
@[simp] theorem State.wr_store (a : Nat) (v : Word) : (s.wr a v).store = s.store := rfl
@[simp] theorem State.wr_blit (a : Nat) (v : Word) : (s.wr a v).blit = s.blit := rfl
@[simp] theorem State.wr_dma (a : Nat) (v : Word) : (s.wr a v).dma = s.dma := rfl
@[simp] theorem State.wr_cam (a : Nat) (v : Word) : (s.wr a v).cam = s.cam := rfl
@[simp] theorem State.wr_aud (a : Nat) (v : Word) : (s.wr a v).aud = s.aud := rfl
@[simp] theorem State.wr_icuStack (a : Nat) (v : Word) : (s.wr a v).icuStack = s.icuStack := rfl
@[simp] theorem State.wr_icuFilt (a : Nat) (v : Word) : (s.wr a v).icuFilt = s.icuFilt := rfl
@[simp] theorem State.wr_dmaLast (a : Nat) (v : Word) : (s.wr a v).dmaLast = s.dmaLast := rfl
@[simp] theorem State.wr_waiting (a : Nat) (v : Word) : (s.wr a v).waiting = s.waiting := rfl
@[simp] theorem State.wr_blocked (a : Nat) (v : Word) : (s.wr a v).blocked = s.blocked := rfl
@[simp] theorem State.wr_capf (a : Nat) (v : Word) : (s.wr a v).capf = s.capf := rfl
@[simp] theorem State.wr_wdtSvc (a : Nat) (v : Word) : (s.wr a v).wdtSvc = s.wdtSvc := rfl
@[simp] theorem State.wr_adcSlot (a : Nat) (v : Word) : (s.wr a v).adcSlot = s.adcSlot := rfl
@[simp] theorem State.wr_prg (a : Nat) (v : Word) : (s.wr a v).prg = s.prg := rfl
@[simp] theorem State.wr_pcie (a : Nat) (v : Word) : (s.wr a v).pcie = s.pcie := rfl
@[simp] theorem State.wr_ptp (a : Nat) (v : Word) : (s.wr a v).ptp = s.ptp := rfl
@[simp] theorem State.wr_eth (a : Nat) (v : Word) : (s.wr a v).eth = s.eth := rfl
@[simp] theorem State.wr_uart (a : Nat) (v : Word) : (s.wr a v).uart = s.uart := rfl
@[simp] theorem State.wr_spi (a : Nat) (v : Word) : (s.wr a v).spi = s.spi := rfl
@[simp] theorem State.wr_i2c (a : Nat) (v : Word) : (s.wr a v).i2c = s.i2c := rfl
@[simp] theorem State.wr_qspi (a : Nat) (v : Word) : (s.wr a v).qspi = s.qspi := rfl
@[simp] theorem State.wr_flash (a : Nat) (v : Word) : (s.wr a v).flash = s.flash := rfl
@[simp] theorem State.wr_pins (a : Nat) (v : Word) : (s.wr a v).pins = s.pins := rfl
@[simp] theorem State.wr_tap (a : Nat) (v : Word) : (s.wr a v).tap = s.tap := rfl
@[simp] theorem State.wr_dbg (a : Nat) (v : Word) : (s.wr a v).dbg = s.dbg := rfl
@[simp] theorem State.wr_fuses (a : Nat) (v : Word) : (s.wr a v).fuses = s.fuses := rfl
@[simp] theorem State.wr_resp (a : Nat) (v : Word) : (s.wr a v).resp = s.resp := rfl

/-! ### put -/

@[simp] theorem State.put_pending (f : Fld) (v : Nat) : (s.put f v).pending = s.pending := rfl
@[simp] theorem State.put_now (f : Fld) (v : Nat) : (s.put f v).now = s.now := rfl
@[simp] theorem State.put_freeCtr (f : Fld) (v : Nat) : (s.put f v).freeCtr = s.freeCtr := rfl
@[simp] theorem State.put_mem (f : Fld) (v : Nat) : (s.put f v).mem = s.mem := rfl
@[simp] theorem State.put_ecc (f : Fld) (v : Nat) : (s.put f v).ecc = s.ecc := rfl
@[simp] theorem State.put_undef (f : Fld) (v : Nat) : (s.put f v).undef = s.undef := rfl
@[simp] theorem State.put_cycBase (f : Fld) (v : Nat) : (s.put f v).cycBase = s.cycBase := rfl
@[simp] theorem State.put_cycT0 (f : Fld) (v : Nat) : (s.put f v).cycT0 = s.cycT0 := rfl
@[simp] theorem State.put_cc (f : Fld) (v : Nat) : (s.put f v).cc = s.cc := rfl
@[simp] theorem State.put_eng (f : Fld) (v : Nat) : (s.put f v).eng = s.eng := rfl
@[simp] theorem State.put_phys (f : Fld) (v : Nat) : (s.put f v).phys = s.phys := rfl
@[simp] theorem State.put_units (f : Fld) (v : Nat) : (s.put f v).units = s.units := rfl
@[simp] theorem State.put_nextTid (f : Fld) (v : Nat) : (s.put f v).nextTid = s.nextTid := rfl
@[simp] theorem State.put_heads (f : Fld) (v : Nat) : (s.put f v).heads = s.heads := rfl
@[simp] theorem State.put_boot (f : Fld) (v : Nat) : (s.put f v).boot = s.boot := rfl
@[simp] theorem State.put_prof (f : Fld) (v : Nat) : (s.put f v).prof = s.prof := rfl
@[simp] theorem State.put_mode (f : Fld) (v : Nat) : (s.put f v).mode = s.mode := rfl
@[simp] theorem State.put_store (f : Fld) (v : Nat) : (s.put f v).store = s.store := rfl
@[simp] theorem State.put_blit (f : Fld) (v : Nat) : (s.put f v).blit = s.blit := rfl
@[simp] theorem State.put_dma (f : Fld) (v : Nat) : (s.put f v).dma = s.dma := rfl
@[simp] theorem State.put_cam (f : Fld) (v : Nat) : (s.put f v).cam = s.cam := rfl
@[simp] theorem State.put_aud (f : Fld) (v : Nat) : (s.put f v).aud = s.aud := rfl
@[simp] theorem State.put_icuStack (f : Fld) (v : Nat) : (s.put f v).icuStack = s.icuStack := rfl
@[simp] theorem State.put_icuFilt (f : Fld) (v : Nat) : (s.put f v).icuFilt = s.icuFilt := rfl
@[simp] theorem State.put_dmaLast (f : Fld) (v : Nat) : (s.put f v).dmaLast = s.dmaLast := rfl
@[simp] theorem State.put_waiting (f : Fld) (v : Nat) : (s.put f v).waiting = s.waiting := rfl
@[simp] theorem State.put_blocked (f : Fld) (v : Nat) : (s.put f v).blocked = s.blocked := rfl
@[simp] theorem State.put_capf (f : Fld) (v : Nat) : (s.put f v).capf = s.capf := rfl
@[simp] theorem State.put_wdtSvc (f : Fld) (v : Nat) : (s.put f v).wdtSvc = s.wdtSvc := rfl
@[simp] theorem State.put_adcSlot (f : Fld) (v : Nat) : (s.put f v).adcSlot = s.adcSlot := rfl
@[simp] theorem State.put_prg (f : Fld) (v : Nat) : (s.put f v).prg = s.prg := rfl
@[simp] theorem State.put_pcie (f : Fld) (v : Nat) : (s.put f v).pcie = s.pcie := rfl
@[simp] theorem State.put_ptp (f : Fld) (v : Nat) : (s.put f v).ptp = s.ptp := rfl
@[simp] theorem State.put_eth (f : Fld) (v : Nat) : (s.put f v).eth = s.eth := rfl
@[simp] theorem State.put_uart (f : Fld) (v : Nat) : (s.put f v).uart = s.uart := rfl
@[simp] theorem State.put_spi (f : Fld) (v : Nat) : (s.put f v).spi = s.spi := rfl
@[simp] theorem State.put_i2c (f : Fld) (v : Nat) : (s.put f v).i2c = s.i2c := rfl
@[simp] theorem State.put_qspi (f : Fld) (v : Nat) : (s.put f v).qspi = s.qspi := rfl
@[simp] theorem State.put_flash (f : Fld) (v : Nat) : (s.put f v).flash = s.flash := rfl
@[simp] theorem State.put_pins (f : Fld) (v : Nat) : (s.put f v).pins = s.pins := rfl
@[simp] theorem State.put_tap (f : Fld) (v : Nat) : (s.put f v).tap = s.tap := rfl
@[simp] theorem State.put_dbg (f : Fld) (v : Nat) : (s.put f v).dbg = s.dbg := rfl
@[simp] theorem State.put_fuses (f : Fld) (v : Nat) : (s.put f v).fuses = s.fuses := rfl
@[simp] theorem State.put_resp (f : Fld) (v : Nat) : (s.put f v).resp = s.resp := rfl

/-! ### setHead -/

@[simp] theorem State.setHead_pending (h : Nat) (x : HeadSt) : (s.setHead h x).pending = s.pending := rfl
@[simp] theorem State.setHead_now (h : Nat) (x : HeadSt) : (s.setHead h x).now = s.now := rfl
@[simp] theorem State.setHead_freeCtr (h : Nat) (x : HeadSt) : (s.setHead h x).freeCtr = s.freeCtr := rfl
@[simp] theorem State.setHead_regs (h : Nat) (x : HeadSt) : (s.setHead h x).regs = s.regs := rfl
@[simp] theorem State.setHead_mem (h : Nat) (x : HeadSt) : (s.setHead h x).mem = s.mem := rfl
@[simp] theorem State.setHead_ecc (h : Nat) (x : HeadSt) : (s.setHead h x).ecc = s.ecc := rfl
@[simp] theorem State.setHead_undef (h : Nat) (x : HeadSt) : (s.setHead h x).undef = s.undef := rfl
@[simp] theorem State.setHead_cycBase (h : Nat) (x : HeadSt) : (s.setHead h x).cycBase = s.cycBase := rfl
@[simp] theorem State.setHead_cycT0 (h : Nat) (x : HeadSt) : (s.setHead h x).cycT0 = s.cycT0 := rfl
@[simp] theorem State.setHead_cc (h : Nat) (x : HeadSt) : (s.setHead h x).cc = s.cc := rfl
@[simp] theorem State.setHead_eng (h : Nat) (x : HeadSt) : (s.setHead h x).eng = s.eng := rfl
@[simp] theorem State.setHead_phys (h : Nat) (x : HeadSt) : (s.setHead h x).phys = s.phys := rfl
@[simp] theorem State.setHead_units (h : Nat) (x : HeadSt) : (s.setHead h x).units = s.units := rfl
@[simp] theorem State.setHead_nextTid (h : Nat) (x : HeadSt) : (s.setHead h x).nextTid = s.nextTid := rfl
@[simp] theorem State.setHead_boot (h : Nat) (x : HeadSt) : (s.setHead h x).boot = s.boot := rfl
@[simp] theorem State.setHead_prof (h : Nat) (x : HeadSt) : (s.setHead h x).prof = s.prof := rfl
@[simp] theorem State.setHead_mode (h : Nat) (x : HeadSt) : (s.setHead h x).mode = s.mode := rfl
@[simp] theorem State.setHead_store (h : Nat) (x : HeadSt) : (s.setHead h x).store = s.store := rfl
@[simp] theorem State.setHead_blit (h : Nat) (x : HeadSt) : (s.setHead h x).blit = s.blit := rfl
@[simp] theorem State.setHead_dma (h : Nat) (x : HeadSt) : (s.setHead h x).dma = s.dma := rfl
@[simp] theorem State.setHead_cam (h : Nat) (x : HeadSt) : (s.setHead h x).cam = s.cam := rfl
@[simp] theorem State.setHead_aud (h : Nat) (x : HeadSt) : (s.setHead h x).aud = s.aud := rfl
@[simp] theorem State.setHead_icuStack (h : Nat) (x : HeadSt) : (s.setHead h x).icuStack = s.icuStack := rfl
@[simp] theorem State.setHead_icuFilt (h : Nat) (x : HeadSt) : (s.setHead h x).icuFilt = s.icuFilt := rfl
@[simp] theorem State.setHead_dmaLast (h : Nat) (x : HeadSt) : (s.setHead h x).dmaLast = s.dmaLast := rfl
@[simp] theorem State.setHead_waiting (h : Nat) (x : HeadSt) : (s.setHead h x).waiting = s.waiting := rfl
@[simp] theorem State.setHead_blocked (h : Nat) (x : HeadSt) : (s.setHead h x).blocked = s.blocked := rfl
@[simp] theorem State.setHead_capf (h : Nat) (x : HeadSt) : (s.setHead h x).capf = s.capf := rfl
@[simp] theorem State.setHead_wdtSvc (h : Nat) (x : HeadSt) : (s.setHead h x).wdtSvc = s.wdtSvc := rfl
@[simp] theorem State.setHead_adcSlot (h : Nat) (x : HeadSt) : (s.setHead h x).adcSlot = s.adcSlot := rfl
@[simp] theorem State.setHead_prg (h : Nat) (x : HeadSt) : (s.setHead h x).prg = s.prg := rfl
@[simp] theorem State.setHead_pcie (h : Nat) (x : HeadSt) : (s.setHead h x).pcie = s.pcie := rfl
@[simp] theorem State.setHead_ptp (h : Nat) (x : HeadSt) : (s.setHead h x).ptp = s.ptp := rfl
@[simp] theorem State.setHead_eth (h : Nat) (x : HeadSt) : (s.setHead h x).eth = s.eth := rfl
@[simp] theorem State.setHead_uart (h : Nat) (x : HeadSt) : (s.setHead h x).uart = s.uart := rfl
@[simp] theorem State.setHead_spi (h : Nat) (x : HeadSt) : (s.setHead h x).spi = s.spi := rfl
@[simp] theorem State.setHead_i2c (h : Nat) (x : HeadSt) : (s.setHead h x).i2c = s.i2c := rfl
@[simp] theorem State.setHead_qspi (h : Nat) (x : HeadSt) : (s.setHead h x).qspi = s.qspi := rfl
@[simp] theorem State.setHead_flash (h : Nat) (x : HeadSt) : (s.setHead h x).flash = s.flash := rfl
@[simp] theorem State.setHead_pins (h : Nat) (x : HeadSt) : (s.setHead h x).pins = s.pins := rfl
@[simp] theorem State.setHead_tap (h : Nat) (x : HeadSt) : (s.setHead h x).tap = s.tap := rfl
@[simp] theorem State.setHead_dbg (h : Nat) (x : HeadSt) : (s.setHead h x).dbg = s.dbg := rfl
@[simp] theorem State.setHead_fuses (h : Nat) (x : HeadSt) : (s.setHead h x).fuses = s.fuses := rfl
@[simp] theorem State.setHead_resp (h : Nat) (x : HeadSt) : (s.setHead h x).resp = s.resp := rfl

/-! ### modHead -/

@[simp] theorem State.modHead_pending (h : Nat) (f : HeadSt → HeadSt) : (s.modHead h f).pending = s.pending := rfl
@[simp] theorem State.modHead_now (h : Nat) (f : HeadSt → HeadSt) : (s.modHead h f).now = s.now := rfl
@[simp] theorem State.modHead_freeCtr (h : Nat) (f : HeadSt → HeadSt) : (s.modHead h f).freeCtr = s.freeCtr := rfl
@[simp] theorem State.modHead_regs (h : Nat) (f : HeadSt → HeadSt) : (s.modHead h f).regs = s.regs := rfl
@[simp] theorem State.modHead_mem (h : Nat) (f : HeadSt → HeadSt) : (s.modHead h f).mem = s.mem := rfl
@[simp] theorem State.modHead_ecc (h : Nat) (f : HeadSt → HeadSt) : (s.modHead h f).ecc = s.ecc := rfl
@[simp] theorem State.modHead_undef (h : Nat) (f : HeadSt → HeadSt) : (s.modHead h f).undef = s.undef := rfl
@[simp] theorem State.modHead_cycBase (h : Nat) (f : HeadSt → HeadSt) : (s.modHead h f).cycBase = s.cycBase := rfl
@[simp] theorem State.modHead_cycT0 (h : Nat) (f : HeadSt → HeadSt) : (s.modHead h f).cycT0 = s.cycT0 := rfl
@[simp] theorem State.modHead_cc (h : Nat) (f : HeadSt → HeadSt) : (s.modHead h f).cc = s.cc := rfl
@[simp] theorem State.modHead_eng (h : Nat) (f : HeadSt → HeadSt) : (s.modHead h f).eng = s.eng := rfl
@[simp] theorem State.modHead_phys (h : Nat) (f : HeadSt → HeadSt) : (s.modHead h f).phys = s.phys := rfl
@[simp] theorem State.modHead_units (h : Nat) (f : HeadSt → HeadSt) : (s.modHead h f).units = s.units := rfl
@[simp] theorem State.modHead_nextTid (h : Nat) (f : HeadSt → HeadSt) : (s.modHead h f).nextTid = s.nextTid := rfl
@[simp] theorem State.modHead_boot (h : Nat) (f : HeadSt → HeadSt) : (s.modHead h f).boot = s.boot := rfl
@[simp] theorem State.modHead_prof (h : Nat) (f : HeadSt → HeadSt) : (s.modHead h f).prof = s.prof := rfl
@[simp] theorem State.modHead_mode (h : Nat) (f : HeadSt → HeadSt) : (s.modHead h f).mode = s.mode := rfl
@[simp] theorem State.modHead_store (h : Nat) (f : HeadSt → HeadSt) : (s.modHead h f).store = s.store := rfl
@[simp] theorem State.modHead_blit (h : Nat) (f : HeadSt → HeadSt) : (s.modHead h f).blit = s.blit := rfl
@[simp] theorem State.modHead_dma (h : Nat) (f : HeadSt → HeadSt) : (s.modHead h f).dma = s.dma := rfl
@[simp] theorem State.modHead_cam (h : Nat) (f : HeadSt → HeadSt) : (s.modHead h f).cam = s.cam := rfl
@[simp] theorem State.modHead_aud (h : Nat) (f : HeadSt → HeadSt) : (s.modHead h f).aud = s.aud := rfl
@[simp] theorem State.modHead_icuStack (h : Nat) (f : HeadSt → HeadSt) : (s.modHead h f).icuStack = s.icuStack := rfl
@[simp] theorem State.modHead_icuFilt (h : Nat) (f : HeadSt → HeadSt) : (s.modHead h f).icuFilt = s.icuFilt := rfl
@[simp] theorem State.modHead_dmaLast (h : Nat) (f : HeadSt → HeadSt) : (s.modHead h f).dmaLast = s.dmaLast := rfl
@[simp] theorem State.modHead_waiting (h : Nat) (f : HeadSt → HeadSt) : (s.modHead h f).waiting = s.waiting := rfl
@[simp] theorem State.modHead_blocked (h : Nat) (f : HeadSt → HeadSt) : (s.modHead h f).blocked = s.blocked := rfl
@[simp] theorem State.modHead_capf (h : Nat) (f : HeadSt → HeadSt) : (s.modHead h f).capf = s.capf := rfl
@[simp] theorem State.modHead_wdtSvc (h : Nat) (f : HeadSt → HeadSt) : (s.modHead h f).wdtSvc = s.wdtSvc := rfl
@[simp] theorem State.modHead_adcSlot (h : Nat) (f : HeadSt → HeadSt) : (s.modHead h f).adcSlot = s.adcSlot := rfl
@[simp] theorem State.modHead_prg (h : Nat) (f : HeadSt → HeadSt) : (s.modHead h f).prg = s.prg := rfl
@[simp] theorem State.modHead_pcie (h : Nat) (f : HeadSt → HeadSt) : (s.modHead h f).pcie = s.pcie := rfl
@[simp] theorem State.modHead_ptp (h : Nat) (f : HeadSt → HeadSt) : (s.modHead h f).ptp = s.ptp := rfl
@[simp] theorem State.modHead_eth (h : Nat) (f : HeadSt → HeadSt) : (s.modHead h f).eth = s.eth := rfl
@[simp] theorem State.modHead_uart (h : Nat) (f : HeadSt → HeadSt) : (s.modHead h f).uart = s.uart := rfl
@[simp] theorem State.modHead_spi (h : Nat) (f : HeadSt → HeadSt) : (s.modHead h f).spi = s.spi := rfl
@[simp] theorem State.modHead_i2c (h : Nat) (f : HeadSt → HeadSt) : (s.modHead h f).i2c = s.i2c := rfl
@[simp] theorem State.modHead_qspi (h : Nat) (f : HeadSt → HeadSt) : (s.modHead h f).qspi = s.qspi := rfl
@[simp] theorem State.modHead_flash (h : Nat) (f : HeadSt → HeadSt) : (s.modHead h f).flash = s.flash := rfl
@[simp] theorem State.modHead_pins (h : Nat) (f : HeadSt → HeadSt) : (s.modHead h f).pins = s.pins := rfl
@[simp] theorem State.modHead_tap (h : Nat) (f : HeadSt → HeadSt) : (s.modHead h f).tap = s.tap := rfl
@[simp] theorem State.modHead_dbg (h : Nat) (f : HeadSt → HeadSt) : (s.modHead h f).dbg = s.dbg := rfl
@[simp] theorem State.modHead_fuses (h : Nat) (f : HeadSt → HeadSt) : (s.modHead h f).fuses = s.fuses := rfl
@[simp] theorem State.modHead_resp (h : Nat) (f : HeadSt → HeadSt) : (s.modHead h f).resp = s.resp := rfl

/-! ### modLayer -/

@[simp] theorem State.modLayer_pending (h l : Nat) (f : LayerSt → LayerSt) : (s.modLayer h l f).pending = s.pending := rfl
@[simp] theorem State.modLayer_now (h l : Nat) (f : LayerSt → LayerSt) : (s.modLayer h l f).now = s.now := rfl
@[simp] theorem State.modLayer_freeCtr (h l : Nat) (f : LayerSt → LayerSt) : (s.modLayer h l f).freeCtr = s.freeCtr := rfl
@[simp] theorem State.modLayer_regs (h l : Nat) (f : LayerSt → LayerSt) : (s.modLayer h l f).regs = s.regs := rfl
@[simp] theorem State.modLayer_mem (h l : Nat) (f : LayerSt → LayerSt) : (s.modLayer h l f).mem = s.mem := rfl
@[simp] theorem State.modLayer_ecc (h l : Nat) (f : LayerSt → LayerSt) : (s.modLayer h l f).ecc = s.ecc := rfl
@[simp] theorem State.modLayer_undef (h l : Nat) (f : LayerSt → LayerSt) : (s.modLayer h l f).undef = s.undef := rfl
@[simp] theorem State.modLayer_cycBase (h l : Nat) (f : LayerSt → LayerSt) : (s.modLayer h l f).cycBase = s.cycBase := rfl
@[simp] theorem State.modLayer_cycT0 (h l : Nat) (f : LayerSt → LayerSt) : (s.modLayer h l f).cycT0 = s.cycT0 := rfl
@[simp] theorem State.modLayer_cc (h l : Nat) (f : LayerSt → LayerSt) : (s.modLayer h l f).cc = s.cc := rfl
@[simp] theorem State.modLayer_eng (h l : Nat) (f : LayerSt → LayerSt) : (s.modLayer h l f).eng = s.eng := rfl
@[simp] theorem State.modLayer_phys (h l : Nat) (f : LayerSt → LayerSt) : (s.modLayer h l f).phys = s.phys := rfl
@[simp] theorem State.modLayer_units (h l : Nat) (f : LayerSt → LayerSt) : (s.modLayer h l f).units = s.units := rfl
@[simp] theorem State.modLayer_nextTid (h l : Nat) (f : LayerSt → LayerSt) : (s.modLayer h l f).nextTid = s.nextTid := rfl
@[simp] theorem State.modLayer_boot (h l : Nat) (f : LayerSt → LayerSt) : (s.modLayer h l f).boot = s.boot := rfl
@[simp] theorem State.modLayer_prof (h l : Nat) (f : LayerSt → LayerSt) : (s.modLayer h l f).prof = s.prof := rfl
@[simp] theorem State.modLayer_mode (h l : Nat) (f : LayerSt → LayerSt) : (s.modLayer h l f).mode = s.mode := rfl
@[simp] theorem State.modLayer_store (h l : Nat) (f : LayerSt → LayerSt) : (s.modLayer h l f).store = s.store := rfl
@[simp] theorem State.modLayer_blit (h l : Nat) (f : LayerSt → LayerSt) : (s.modLayer h l f).blit = s.blit := rfl
@[simp] theorem State.modLayer_dma (h l : Nat) (f : LayerSt → LayerSt) : (s.modLayer h l f).dma = s.dma := rfl
@[simp] theorem State.modLayer_cam (h l : Nat) (f : LayerSt → LayerSt) : (s.modLayer h l f).cam = s.cam := rfl
@[simp] theorem State.modLayer_aud (h l : Nat) (f : LayerSt → LayerSt) : (s.modLayer h l f).aud = s.aud := rfl
@[simp] theorem State.modLayer_icuStack (h l : Nat) (f : LayerSt → LayerSt) : (s.modLayer h l f).icuStack = s.icuStack := rfl
@[simp] theorem State.modLayer_icuFilt (h l : Nat) (f : LayerSt → LayerSt) : (s.modLayer h l f).icuFilt = s.icuFilt := rfl
@[simp] theorem State.modLayer_dmaLast (h l : Nat) (f : LayerSt → LayerSt) : (s.modLayer h l f).dmaLast = s.dmaLast := rfl
@[simp] theorem State.modLayer_waiting (h l : Nat) (f : LayerSt → LayerSt) : (s.modLayer h l f).waiting = s.waiting := rfl
@[simp] theorem State.modLayer_blocked (h l : Nat) (f : LayerSt → LayerSt) : (s.modLayer h l f).blocked = s.blocked := rfl
@[simp] theorem State.modLayer_capf (h l : Nat) (f : LayerSt → LayerSt) : (s.modLayer h l f).capf = s.capf := rfl
@[simp] theorem State.modLayer_wdtSvc (h l : Nat) (f : LayerSt → LayerSt) : (s.modLayer h l f).wdtSvc = s.wdtSvc := rfl
@[simp] theorem State.modLayer_adcSlot (h l : Nat) (f : LayerSt → LayerSt) : (s.modLayer h l f).adcSlot = s.adcSlot := rfl
@[simp] theorem State.modLayer_prg (h l : Nat) (f : LayerSt → LayerSt) : (s.modLayer h l f).prg = s.prg := rfl
@[simp] theorem State.modLayer_pcie (h l : Nat) (f : LayerSt → LayerSt) : (s.modLayer h l f).pcie = s.pcie := rfl
@[simp] theorem State.modLayer_ptp (h l : Nat) (f : LayerSt → LayerSt) : (s.modLayer h l f).ptp = s.ptp := rfl
@[simp] theorem State.modLayer_eth (h l : Nat) (f : LayerSt → LayerSt) : (s.modLayer h l f).eth = s.eth := rfl
@[simp] theorem State.modLayer_uart (h l : Nat) (f : LayerSt → LayerSt) : (s.modLayer h l f).uart = s.uart := rfl
@[simp] theorem State.modLayer_spi (h l : Nat) (f : LayerSt → LayerSt) : (s.modLayer h l f).spi = s.spi := rfl
@[simp] theorem State.modLayer_i2c (h l : Nat) (f : LayerSt → LayerSt) : (s.modLayer h l f).i2c = s.i2c := rfl
@[simp] theorem State.modLayer_qspi (h l : Nat) (f : LayerSt → LayerSt) : (s.modLayer h l f).qspi = s.qspi := rfl
@[simp] theorem State.modLayer_flash (h l : Nat) (f : LayerSt → LayerSt) : (s.modLayer h l f).flash = s.flash := rfl
@[simp] theorem State.modLayer_pins (h l : Nat) (f : LayerSt → LayerSt) : (s.modLayer h l f).pins = s.pins := rfl
@[simp] theorem State.modLayer_tap (h l : Nat) (f : LayerSt → LayerSt) : (s.modLayer h l f).tap = s.tap := rfl
@[simp] theorem State.modLayer_dbg (h l : Nat) (f : LayerSt → LayerSt) : (s.modLayer h l f).dbg = s.dbg := rfl
@[simp] theorem State.modLayer_fuses (h l : Nat) (f : LayerSt → LayerSt) : (s.modLayer h l f).fuses = s.fuses := rfl
@[simp] theorem State.modLayer_resp (h l : Nat) (f : LayerSt → LayerSt) : (s.modLayer h l f).resp = s.resp := rfl

/-! ### setEngine -/

@[simp] theorem State.setEngine_pending (e : Nat) (x : CoreSt) : (s.setEngine e x).pending = s.pending := rfl
@[simp] theorem State.setEngine_now (e : Nat) (x : CoreSt) : (s.setEngine e x).now = s.now := rfl
@[simp] theorem State.setEngine_freeCtr (e : Nat) (x : CoreSt) : (s.setEngine e x).freeCtr = s.freeCtr := rfl
@[simp] theorem State.setEngine_regs (e : Nat) (x : CoreSt) : (s.setEngine e x).regs = s.regs := rfl
@[simp] theorem State.setEngine_mem (e : Nat) (x : CoreSt) : (s.setEngine e x).mem = s.mem := rfl
@[simp] theorem State.setEngine_ecc (e : Nat) (x : CoreSt) : (s.setEngine e x).ecc = s.ecc := rfl
@[simp] theorem State.setEngine_undef (e : Nat) (x : CoreSt) : (s.setEngine e x).undef = s.undef := rfl
@[simp] theorem State.setEngine_cycBase (e : Nat) (x : CoreSt) : (s.setEngine e x).cycBase = s.cycBase := rfl
@[simp] theorem State.setEngine_cycT0 (e : Nat) (x : CoreSt) : (s.setEngine e x).cycT0 = s.cycT0 := rfl
@[simp] theorem State.setEngine_cc (e : Nat) (x : CoreSt) : (s.setEngine e x).cc = s.cc := rfl
@[simp] theorem State.setEngine_phys (e : Nat) (x : CoreSt) : (s.setEngine e x).phys = s.phys := rfl
@[simp] theorem State.setEngine_units (e : Nat) (x : CoreSt) : (s.setEngine e x).units = s.units := rfl
@[simp] theorem State.setEngine_nextTid (e : Nat) (x : CoreSt) : (s.setEngine e x).nextTid = s.nextTid := rfl
@[simp] theorem State.setEngine_heads (e : Nat) (x : CoreSt) : (s.setEngine e x).heads = s.heads := rfl
@[simp] theorem State.setEngine_boot (e : Nat) (x : CoreSt) : (s.setEngine e x).boot = s.boot := rfl
@[simp] theorem State.setEngine_prof (e : Nat) (x : CoreSt) : (s.setEngine e x).prof = s.prof := rfl
@[simp] theorem State.setEngine_mode (e : Nat) (x : CoreSt) : (s.setEngine e x).mode = s.mode := rfl
@[simp] theorem State.setEngine_store (e : Nat) (x : CoreSt) : (s.setEngine e x).store = s.store := rfl
@[simp] theorem State.setEngine_blit (e : Nat) (x : CoreSt) : (s.setEngine e x).blit = s.blit := rfl
@[simp] theorem State.setEngine_dma (e : Nat) (x : CoreSt) : (s.setEngine e x).dma = s.dma := rfl
@[simp] theorem State.setEngine_cam (e : Nat) (x : CoreSt) : (s.setEngine e x).cam = s.cam := rfl
@[simp] theorem State.setEngine_aud (e : Nat) (x : CoreSt) : (s.setEngine e x).aud = s.aud := rfl
@[simp] theorem State.setEngine_icuStack (e : Nat) (x : CoreSt) : (s.setEngine e x).icuStack = s.icuStack := rfl
@[simp] theorem State.setEngine_icuFilt (e : Nat) (x : CoreSt) : (s.setEngine e x).icuFilt = s.icuFilt := rfl
@[simp] theorem State.setEngine_dmaLast (e : Nat) (x : CoreSt) : (s.setEngine e x).dmaLast = s.dmaLast := rfl
@[simp] theorem State.setEngine_waiting (e : Nat) (x : CoreSt) : (s.setEngine e x).waiting = s.waiting := rfl
@[simp] theorem State.setEngine_blocked (e : Nat) (x : CoreSt) : (s.setEngine e x).blocked = s.blocked := rfl
@[simp] theorem State.setEngine_capf (e : Nat) (x : CoreSt) : (s.setEngine e x).capf = s.capf := rfl
@[simp] theorem State.setEngine_wdtSvc (e : Nat) (x : CoreSt) : (s.setEngine e x).wdtSvc = s.wdtSvc := rfl
@[simp] theorem State.setEngine_adcSlot (e : Nat) (x : CoreSt) : (s.setEngine e x).adcSlot = s.adcSlot := rfl
@[simp] theorem State.setEngine_prg (e : Nat) (x : CoreSt) : (s.setEngine e x).prg = s.prg := rfl
@[simp] theorem State.setEngine_pcie (e : Nat) (x : CoreSt) : (s.setEngine e x).pcie = s.pcie := rfl
@[simp] theorem State.setEngine_ptp (e : Nat) (x : CoreSt) : (s.setEngine e x).ptp = s.ptp := rfl
@[simp] theorem State.setEngine_eth (e : Nat) (x : CoreSt) : (s.setEngine e x).eth = s.eth := rfl
@[simp] theorem State.setEngine_uart (e : Nat) (x : CoreSt) : (s.setEngine e x).uart = s.uart := rfl
@[simp] theorem State.setEngine_spi (e : Nat) (x : CoreSt) : (s.setEngine e x).spi = s.spi := rfl
@[simp] theorem State.setEngine_i2c (e : Nat) (x : CoreSt) : (s.setEngine e x).i2c = s.i2c := rfl
@[simp] theorem State.setEngine_qspi (e : Nat) (x : CoreSt) : (s.setEngine e x).qspi = s.qspi := rfl
@[simp] theorem State.setEngine_flash (e : Nat) (x : CoreSt) : (s.setEngine e x).flash = s.flash := rfl
@[simp] theorem State.setEngine_pins (e : Nat) (x : CoreSt) : (s.setEngine e x).pins = s.pins := rfl
@[simp] theorem State.setEngine_tap (e : Nat) (x : CoreSt) : (s.setEngine e x).tap = s.tap := rfl
@[simp] theorem State.setEngine_dbg (e : Nat) (x : CoreSt) : (s.setEngine e x).dbg = s.dbg := rfl
@[simp] theorem State.setEngine_fuses (e : Nat) (x : CoreSt) : (s.setEngine e x).fuses = s.fuses := rfl
@[simp] theorem State.setEngine_resp (e : Nat) (x : CoreSt) : (s.setEngine e x).resp = s.resp := rfl

/-! ### modEngine -/

@[simp] theorem State.modEngine_pending (e : Nat) (f : CoreSt → CoreSt) : (s.modEngine e f).pending = s.pending := rfl
@[simp] theorem State.modEngine_now (e : Nat) (f : CoreSt → CoreSt) : (s.modEngine e f).now = s.now := rfl
@[simp] theorem State.modEngine_freeCtr (e : Nat) (f : CoreSt → CoreSt) : (s.modEngine e f).freeCtr = s.freeCtr := rfl
@[simp] theorem State.modEngine_regs (e : Nat) (f : CoreSt → CoreSt) : (s.modEngine e f).regs = s.regs := rfl
@[simp] theorem State.modEngine_mem (e : Nat) (f : CoreSt → CoreSt) : (s.modEngine e f).mem = s.mem := rfl
@[simp] theorem State.modEngine_ecc (e : Nat) (f : CoreSt → CoreSt) : (s.modEngine e f).ecc = s.ecc := rfl
@[simp] theorem State.modEngine_undef (e : Nat) (f : CoreSt → CoreSt) : (s.modEngine e f).undef = s.undef := rfl
@[simp] theorem State.modEngine_cycBase (e : Nat) (f : CoreSt → CoreSt) : (s.modEngine e f).cycBase = s.cycBase := rfl
@[simp] theorem State.modEngine_cycT0 (e : Nat) (f : CoreSt → CoreSt) : (s.modEngine e f).cycT0 = s.cycT0 := rfl
@[simp] theorem State.modEngine_cc (e : Nat) (f : CoreSt → CoreSt) : (s.modEngine e f).cc = s.cc := rfl
@[simp] theorem State.modEngine_phys (e : Nat) (f : CoreSt → CoreSt) : (s.modEngine e f).phys = s.phys := rfl
@[simp] theorem State.modEngine_units (e : Nat) (f : CoreSt → CoreSt) : (s.modEngine e f).units = s.units := rfl
@[simp] theorem State.modEngine_nextTid (e : Nat) (f : CoreSt → CoreSt) : (s.modEngine e f).nextTid = s.nextTid := rfl
@[simp] theorem State.modEngine_heads (e : Nat) (f : CoreSt → CoreSt) : (s.modEngine e f).heads = s.heads := rfl
@[simp] theorem State.modEngine_boot (e : Nat) (f : CoreSt → CoreSt) : (s.modEngine e f).boot = s.boot := rfl
@[simp] theorem State.modEngine_prof (e : Nat) (f : CoreSt → CoreSt) : (s.modEngine e f).prof = s.prof := rfl
@[simp] theorem State.modEngine_mode (e : Nat) (f : CoreSt → CoreSt) : (s.modEngine e f).mode = s.mode := rfl
@[simp] theorem State.modEngine_store (e : Nat) (f : CoreSt → CoreSt) : (s.modEngine e f).store = s.store := rfl
@[simp] theorem State.modEngine_blit (e : Nat) (f : CoreSt → CoreSt) : (s.modEngine e f).blit = s.blit := rfl
@[simp] theorem State.modEngine_dma (e : Nat) (f : CoreSt → CoreSt) : (s.modEngine e f).dma = s.dma := rfl
@[simp] theorem State.modEngine_cam (e : Nat) (f : CoreSt → CoreSt) : (s.modEngine e f).cam = s.cam := rfl
@[simp] theorem State.modEngine_aud (e : Nat) (f : CoreSt → CoreSt) : (s.modEngine e f).aud = s.aud := rfl
@[simp] theorem State.modEngine_icuStack (e : Nat) (f : CoreSt → CoreSt) : (s.modEngine e f).icuStack = s.icuStack := rfl
@[simp] theorem State.modEngine_icuFilt (e : Nat) (f : CoreSt → CoreSt) : (s.modEngine e f).icuFilt = s.icuFilt := rfl
@[simp] theorem State.modEngine_dmaLast (e : Nat) (f : CoreSt → CoreSt) : (s.modEngine e f).dmaLast = s.dmaLast := rfl
@[simp] theorem State.modEngine_waiting (e : Nat) (f : CoreSt → CoreSt) : (s.modEngine e f).waiting = s.waiting := rfl
@[simp] theorem State.modEngine_blocked (e : Nat) (f : CoreSt → CoreSt) : (s.modEngine e f).blocked = s.blocked := rfl
@[simp] theorem State.modEngine_capf (e : Nat) (f : CoreSt → CoreSt) : (s.modEngine e f).capf = s.capf := rfl
@[simp] theorem State.modEngine_wdtSvc (e : Nat) (f : CoreSt → CoreSt) : (s.modEngine e f).wdtSvc = s.wdtSvc := rfl
@[simp] theorem State.modEngine_adcSlot (e : Nat) (f : CoreSt → CoreSt) : (s.modEngine e f).adcSlot = s.adcSlot := rfl
@[simp] theorem State.modEngine_prg (e : Nat) (f : CoreSt → CoreSt) : (s.modEngine e f).prg = s.prg := rfl
@[simp] theorem State.modEngine_pcie (e : Nat) (f : CoreSt → CoreSt) : (s.modEngine e f).pcie = s.pcie := rfl
@[simp] theorem State.modEngine_ptp (e : Nat) (f : CoreSt → CoreSt) : (s.modEngine e f).ptp = s.ptp := rfl
@[simp] theorem State.modEngine_eth (e : Nat) (f : CoreSt → CoreSt) : (s.modEngine e f).eth = s.eth := rfl
@[simp] theorem State.modEngine_uart (e : Nat) (f : CoreSt → CoreSt) : (s.modEngine e f).uart = s.uart := rfl
@[simp] theorem State.modEngine_spi (e : Nat) (f : CoreSt → CoreSt) : (s.modEngine e f).spi = s.spi := rfl
@[simp] theorem State.modEngine_i2c (e : Nat) (f : CoreSt → CoreSt) : (s.modEngine e f).i2c = s.i2c := rfl
@[simp] theorem State.modEngine_qspi (e : Nat) (f : CoreSt → CoreSt) : (s.modEngine e f).qspi = s.qspi := rfl
@[simp] theorem State.modEngine_flash (e : Nat) (f : CoreSt → CoreSt) : (s.modEngine e f).flash = s.flash := rfl
@[simp] theorem State.modEngine_pins (e : Nat) (f : CoreSt → CoreSt) : (s.modEngine e f).pins = s.pins := rfl
@[simp] theorem State.modEngine_tap (e : Nat) (f : CoreSt → CoreSt) : (s.modEngine e f).tap = s.tap := rfl
@[simp] theorem State.modEngine_dbg (e : Nat) (f : CoreSt → CoreSt) : (s.modEngine e f).dbg = s.dbg := rfl
@[simp] theorem State.modEngine_fuses (e : Nat) (f : CoreSt → CoreSt) : (s.modEngine e f).fuses = s.fuses := rfl
@[simp] theorem State.modEngine_resp (e : Nat) (f : CoreSt → CoreSt) : (s.modEngine e f).resp = s.resp := rfl

/-! ### setUnit -/

@[simp] theorem State.setUnit_pending (u : Nat) (x : Option UnitSt) : (s.setUnit u x).pending = s.pending := rfl
@[simp] theorem State.setUnit_now (u : Nat) (x : Option UnitSt) : (s.setUnit u x).now = s.now := rfl
@[simp] theorem State.setUnit_freeCtr (u : Nat) (x : Option UnitSt) : (s.setUnit u x).freeCtr = s.freeCtr := rfl
@[simp] theorem State.setUnit_regs (u : Nat) (x : Option UnitSt) : (s.setUnit u x).regs = s.regs := rfl
@[simp] theorem State.setUnit_mem (u : Nat) (x : Option UnitSt) : (s.setUnit u x).mem = s.mem := rfl
@[simp] theorem State.setUnit_ecc (u : Nat) (x : Option UnitSt) : (s.setUnit u x).ecc = s.ecc := rfl
@[simp] theorem State.setUnit_undef (u : Nat) (x : Option UnitSt) : (s.setUnit u x).undef = s.undef := rfl
@[simp] theorem State.setUnit_cycBase (u : Nat) (x : Option UnitSt) : (s.setUnit u x).cycBase = s.cycBase := rfl
@[simp] theorem State.setUnit_cycT0 (u : Nat) (x : Option UnitSt) : (s.setUnit u x).cycT0 = s.cycT0 := rfl
@[simp] theorem State.setUnit_cc (u : Nat) (x : Option UnitSt) : (s.setUnit u x).cc = s.cc := rfl
@[simp] theorem State.setUnit_eng (u : Nat) (x : Option UnitSt) : (s.setUnit u x).eng = s.eng := rfl
@[simp] theorem State.setUnit_phys (u : Nat) (x : Option UnitSt) : (s.setUnit u x).phys = s.phys := rfl
@[simp] theorem State.setUnit_nextTid (u : Nat) (x : Option UnitSt) : (s.setUnit u x).nextTid = s.nextTid := rfl
@[simp] theorem State.setUnit_heads (u : Nat) (x : Option UnitSt) : (s.setUnit u x).heads = s.heads := rfl
@[simp] theorem State.setUnit_boot (u : Nat) (x : Option UnitSt) : (s.setUnit u x).boot = s.boot := rfl
@[simp] theorem State.setUnit_prof (u : Nat) (x : Option UnitSt) : (s.setUnit u x).prof = s.prof := rfl
@[simp] theorem State.setUnit_mode (u : Nat) (x : Option UnitSt) : (s.setUnit u x).mode = s.mode := rfl
@[simp] theorem State.setUnit_store (u : Nat) (x : Option UnitSt) : (s.setUnit u x).store = s.store := rfl
@[simp] theorem State.setUnit_blit (u : Nat) (x : Option UnitSt) : (s.setUnit u x).blit = s.blit := rfl
@[simp] theorem State.setUnit_dma (u : Nat) (x : Option UnitSt) : (s.setUnit u x).dma = s.dma := rfl
@[simp] theorem State.setUnit_cam (u : Nat) (x : Option UnitSt) : (s.setUnit u x).cam = s.cam := rfl
@[simp] theorem State.setUnit_aud (u : Nat) (x : Option UnitSt) : (s.setUnit u x).aud = s.aud := rfl
@[simp] theorem State.setUnit_icuStack (u : Nat) (x : Option UnitSt) : (s.setUnit u x).icuStack = s.icuStack := rfl
@[simp] theorem State.setUnit_icuFilt (u : Nat) (x : Option UnitSt) : (s.setUnit u x).icuFilt = s.icuFilt := rfl
@[simp] theorem State.setUnit_dmaLast (u : Nat) (x : Option UnitSt) : (s.setUnit u x).dmaLast = s.dmaLast := rfl
@[simp] theorem State.setUnit_waiting (u : Nat) (x : Option UnitSt) : (s.setUnit u x).waiting = s.waiting := rfl
@[simp] theorem State.setUnit_blocked (u : Nat) (x : Option UnitSt) : (s.setUnit u x).blocked = s.blocked := rfl
@[simp] theorem State.setUnit_capf (u : Nat) (x : Option UnitSt) : (s.setUnit u x).capf = s.capf := rfl
@[simp] theorem State.setUnit_wdtSvc (u : Nat) (x : Option UnitSt) : (s.setUnit u x).wdtSvc = s.wdtSvc := rfl
@[simp] theorem State.setUnit_adcSlot (u : Nat) (x : Option UnitSt) : (s.setUnit u x).adcSlot = s.adcSlot := rfl
@[simp] theorem State.setUnit_prg (u : Nat) (x : Option UnitSt) : (s.setUnit u x).prg = s.prg := rfl
@[simp] theorem State.setUnit_pcie (u : Nat) (x : Option UnitSt) : (s.setUnit u x).pcie = s.pcie := rfl
@[simp] theorem State.setUnit_ptp (u : Nat) (x : Option UnitSt) : (s.setUnit u x).ptp = s.ptp := rfl
@[simp] theorem State.setUnit_eth (u : Nat) (x : Option UnitSt) : (s.setUnit u x).eth = s.eth := rfl
@[simp] theorem State.setUnit_uart (u : Nat) (x : Option UnitSt) : (s.setUnit u x).uart = s.uart := rfl
@[simp] theorem State.setUnit_spi (u : Nat) (x : Option UnitSt) : (s.setUnit u x).spi = s.spi := rfl
@[simp] theorem State.setUnit_i2c (u : Nat) (x : Option UnitSt) : (s.setUnit u x).i2c = s.i2c := rfl
@[simp] theorem State.setUnit_qspi (u : Nat) (x : Option UnitSt) : (s.setUnit u x).qspi = s.qspi := rfl
@[simp] theorem State.setUnit_flash (u : Nat) (x : Option UnitSt) : (s.setUnit u x).flash = s.flash := rfl
@[simp] theorem State.setUnit_pins (u : Nat) (x : Option UnitSt) : (s.setUnit u x).pins = s.pins := rfl
@[simp] theorem State.setUnit_tap (u : Nat) (x : Option UnitSt) : (s.setUnit u x).tap = s.tap := rfl
@[simp] theorem State.setUnit_dbg (u : Nat) (x : Option UnitSt) : (s.setUnit u x).dbg = s.dbg := rfl
@[simp] theorem State.setUnit_fuses (u : Nat) (x : Option UnitSt) : (s.setUnit u x).fuses = s.fuses := rfl
@[simp] theorem State.setUnit_resp (u : Nat) (x : Option UnitSt) : (s.setUnit u x).resp = s.resp := rfl

/-! ### putByte -/

@[simp] theorem State.putByte_pending (k : Nat) (b : Byte) : (s.putByte k b).pending = s.pending := rfl
@[simp] theorem State.putByte_now (k : Nat) (b : Byte) : (s.putByte k b).now = s.now := rfl
@[simp] theorem State.putByte_freeCtr (k : Nat) (b : Byte) : (s.putByte k b).freeCtr = s.freeCtr := rfl
@[simp] theorem State.putByte_regs (k : Nat) (b : Byte) : (s.putByte k b).regs = s.regs := rfl
@[simp] theorem State.putByte_cycBase (k : Nat) (b : Byte) : (s.putByte k b).cycBase = s.cycBase := rfl
@[simp] theorem State.putByte_cycT0 (k : Nat) (b : Byte) : (s.putByte k b).cycT0 = s.cycT0 := rfl
@[simp] theorem State.putByte_cc (k : Nat) (b : Byte) : (s.putByte k b).cc = s.cc := rfl
@[simp] theorem State.putByte_eng (k : Nat) (b : Byte) : (s.putByte k b).eng = s.eng := rfl
@[simp] theorem State.putByte_phys (k : Nat) (b : Byte) : (s.putByte k b).phys = s.phys := rfl
@[simp] theorem State.putByte_units (k : Nat) (b : Byte) : (s.putByte k b).units = s.units := rfl
@[simp] theorem State.putByte_nextTid (k : Nat) (b : Byte) : (s.putByte k b).nextTid = s.nextTid := rfl
@[simp] theorem State.putByte_heads (k : Nat) (b : Byte) : (s.putByte k b).heads = s.heads := rfl
@[simp] theorem State.putByte_boot (k : Nat) (b : Byte) : (s.putByte k b).boot = s.boot := rfl
@[simp] theorem State.putByte_prof (k : Nat) (b : Byte) : (s.putByte k b).prof = s.prof := rfl
@[simp] theorem State.putByte_mode (k : Nat) (b : Byte) : (s.putByte k b).mode = s.mode := rfl
@[simp] theorem State.putByte_store (k : Nat) (b : Byte) : (s.putByte k b).store = s.store := rfl
@[simp] theorem State.putByte_blit (k : Nat) (b : Byte) : (s.putByte k b).blit = s.blit := rfl
@[simp] theorem State.putByte_dma (k : Nat) (b : Byte) : (s.putByte k b).dma = s.dma := rfl
@[simp] theorem State.putByte_cam (k : Nat) (b : Byte) : (s.putByte k b).cam = s.cam := rfl
@[simp] theorem State.putByte_aud (k : Nat) (b : Byte) : (s.putByte k b).aud = s.aud := rfl
@[simp] theorem State.putByte_icuStack (k : Nat) (b : Byte) : (s.putByte k b).icuStack = s.icuStack := rfl
@[simp] theorem State.putByte_icuFilt (k : Nat) (b : Byte) : (s.putByte k b).icuFilt = s.icuFilt := rfl
@[simp] theorem State.putByte_dmaLast (k : Nat) (b : Byte) : (s.putByte k b).dmaLast = s.dmaLast := rfl
@[simp] theorem State.putByte_waiting (k : Nat) (b : Byte) : (s.putByte k b).waiting = s.waiting := rfl
@[simp] theorem State.putByte_blocked (k : Nat) (b : Byte) : (s.putByte k b).blocked = s.blocked := rfl
@[simp] theorem State.putByte_capf (k : Nat) (b : Byte) : (s.putByte k b).capf = s.capf := rfl
@[simp] theorem State.putByte_wdtSvc (k : Nat) (b : Byte) : (s.putByte k b).wdtSvc = s.wdtSvc := rfl
@[simp] theorem State.putByte_adcSlot (k : Nat) (b : Byte) : (s.putByte k b).adcSlot = s.adcSlot := rfl
@[simp] theorem State.putByte_prg (k : Nat) (b : Byte) : (s.putByte k b).prg = s.prg := rfl
@[simp] theorem State.putByte_pcie (k : Nat) (b : Byte) : (s.putByte k b).pcie = s.pcie := rfl
@[simp] theorem State.putByte_ptp (k : Nat) (b : Byte) : (s.putByte k b).ptp = s.ptp := rfl
@[simp] theorem State.putByte_eth (k : Nat) (b : Byte) : (s.putByte k b).eth = s.eth := rfl
@[simp] theorem State.putByte_uart (k : Nat) (b : Byte) : (s.putByte k b).uart = s.uart := rfl
@[simp] theorem State.putByte_spi (k : Nat) (b : Byte) : (s.putByte k b).spi = s.spi := rfl
@[simp] theorem State.putByte_i2c (k : Nat) (b : Byte) : (s.putByte k b).i2c = s.i2c := rfl
@[simp] theorem State.putByte_qspi (k : Nat) (b : Byte) : (s.putByte k b).qspi = s.qspi := rfl
@[simp] theorem State.putByte_flash (k : Nat) (b : Byte) : (s.putByte k b).flash = s.flash := rfl
@[simp] theorem State.putByte_pins (k : Nat) (b : Byte) : (s.putByte k b).pins = s.pins := rfl
@[simp] theorem State.putByte_tap (k : Nat) (b : Byte) : (s.putByte k b).tap = s.tap := rfl
@[simp] theorem State.putByte_dbg (k : Nat) (b : Byte) : (s.putByte k b).dbg = s.dbg := rfl
@[simp] theorem State.putByte_fuses (k : Nat) (b : Byte) : (s.putByte k b).fuses = s.fuses := rfl
@[simp] theorem State.putByte_resp (k : Nat) (b : Byte) : (s.putByte k b).resp = s.resp := rfl

/-! ### answer -/

@[simp] theorem State.answer_pending (w : Word) : (s.answer w).pending = s.pending := rfl
@[simp] theorem State.answer_now (w : Word) : (s.answer w).now = s.now := rfl
@[simp] theorem State.answer_freeCtr (w : Word) : (s.answer w).freeCtr = s.freeCtr := rfl
@[simp] theorem State.answer_regs (w : Word) : (s.answer w).regs = s.regs := rfl
@[simp] theorem State.answer_mem (w : Word) : (s.answer w).mem = s.mem := rfl
@[simp] theorem State.answer_ecc (w : Word) : (s.answer w).ecc = s.ecc := rfl
@[simp] theorem State.answer_undef (w : Word) : (s.answer w).undef = s.undef := rfl
@[simp] theorem State.answer_cycBase (w : Word) : (s.answer w).cycBase = s.cycBase := rfl
@[simp] theorem State.answer_cycT0 (w : Word) : (s.answer w).cycT0 = s.cycT0 := rfl
@[simp] theorem State.answer_cc (w : Word) : (s.answer w).cc = s.cc := rfl
@[simp] theorem State.answer_eng (w : Word) : (s.answer w).eng = s.eng := rfl
@[simp] theorem State.answer_phys (w : Word) : (s.answer w).phys = s.phys := rfl
@[simp] theorem State.answer_units (w : Word) : (s.answer w).units = s.units := rfl
@[simp] theorem State.answer_nextTid (w : Word) : (s.answer w).nextTid = s.nextTid := rfl
@[simp] theorem State.answer_heads (w : Word) : (s.answer w).heads = s.heads := rfl
@[simp] theorem State.answer_boot (w : Word) : (s.answer w).boot = s.boot := rfl
@[simp] theorem State.answer_prof (w : Word) : (s.answer w).prof = s.prof := rfl
@[simp] theorem State.answer_mode (w : Word) : (s.answer w).mode = s.mode := rfl
@[simp] theorem State.answer_store (w : Word) : (s.answer w).store = s.store := rfl
@[simp] theorem State.answer_blit (w : Word) : (s.answer w).blit = s.blit := rfl
@[simp] theorem State.answer_dma (w : Word) : (s.answer w).dma = s.dma := rfl
@[simp] theorem State.answer_cam (w : Word) : (s.answer w).cam = s.cam := rfl
@[simp] theorem State.answer_aud (w : Word) : (s.answer w).aud = s.aud := rfl
@[simp] theorem State.answer_icuStack (w : Word) : (s.answer w).icuStack = s.icuStack := rfl
@[simp] theorem State.answer_icuFilt (w : Word) : (s.answer w).icuFilt = s.icuFilt := rfl
@[simp] theorem State.answer_dmaLast (w : Word) : (s.answer w).dmaLast = s.dmaLast := rfl
@[simp] theorem State.answer_waiting (w : Word) : (s.answer w).waiting = s.waiting := rfl
@[simp] theorem State.answer_blocked (w : Word) : (s.answer w).blocked = s.blocked := rfl
@[simp] theorem State.answer_capf (w : Word) : (s.answer w).capf = s.capf := rfl
@[simp] theorem State.answer_wdtSvc (w : Word) : (s.answer w).wdtSvc = s.wdtSvc := rfl
@[simp] theorem State.answer_adcSlot (w : Word) : (s.answer w).adcSlot = s.adcSlot := rfl
@[simp] theorem State.answer_prg (w : Word) : (s.answer w).prg = s.prg := rfl
@[simp] theorem State.answer_pcie (w : Word) : (s.answer w).pcie = s.pcie := rfl
@[simp] theorem State.answer_ptp (w : Word) : (s.answer w).ptp = s.ptp := rfl
@[simp] theorem State.answer_eth (w : Word) : (s.answer w).eth = s.eth := rfl
@[simp] theorem State.answer_uart (w : Word) : (s.answer w).uart = s.uart := rfl
@[simp] theorem State.answer_spi (w : Word) : (s.answer w).spi = s.spi := rfl
@[simp] theorem State.answer_i2c (w : Word) : (s.answer w).i2c = s.i2c := rfl
@[simp] theorem State.answer_qspi (w : Word) : (s.answer w).qspi = s.qspi := rfl
@[simp] theorem State.answer_flash (w : Word) : (s.answer w).flash = s.flash := rfl
@[simp] theorem State.answer_pins (w : Word) : (s.answer w).pins = s.pins := rfl
@[simp] theorem State.answer_tap (w : Word) : (s.answer w).tap = s.tap := rfl
@[simp] theorem State.answer_dbg (w : Word) : (s.answer w).dbg = s.dbg := rfl
@[simp] theorem State.answer_fuses (w : Word) : (s.answer w).fuses = s.fuses := rfl

/-! ### refuse -/

@[simp] theorem State.refuse_pending : (s.refuse).pending = s.pending := rfl
@[simp] theorem State.refuse_now : (s.refuse).now = s.now := rfl
@[simp] theorem State.refuse_freeCtr : (s.refuse).freeCtr = s.freeCtr := rfl
@[simp] theorem State.refuse_regs : (s.refuse).regs = s.regs := rfl
@[simp] theorem State.refuse_mem : (s.refuse).mem = s.mem := rfl
@[simp] theorem State.refuse_ecc : (s.refuse).ecc = s.ecc := rfl
@[simp] theorem State.refuse_undef : (s.refuse).undef = s.undef := rfl
@[simp] theorem State.refuse_cycBase : (s.refuse).cycBase = s.cycBase := rfl
@[simp] theorem State.refuse_cycT0 : (s.refuse).cycT0 = s.cycT0 := rfl
@[simp] theorem State.refuse_cc : (s.refuse).cc = s.cc := rfl
@[simp] theorem State.refuse_eng : (s.refuse).eng = s.eng := rfl
@[simp] theorem State.refuse_phys : (s.refuse).phys = s.phys := rfl
@[simp] theorem State.refuse_units : (s.refuse).units = s.units := rfl
@[simp] theorem State.refuse_nextTid : (s.refuse).nextTid = s.nextTid := rfl
@[simp] theorem State.refuse_heads : (s.refuse).heads = s.heads := rfl
@[simp] theorem State.refuse_boot : (s.refuse).boot = s.boot := rfl
@[simp] theorem State.refuse_prof : (s.refuse).prof = s.prof := rfl
@[simp] theorem State.refuse_mode : (s.refuse).mode = s.mode := rfl
@[simp] theorem State.refuse_store : (s.refuse).store = s.store := rfl
@[simp] theorem State.refuse_blit : (s.refuse).blit = s.blit := rfl
@[simp] theorem State.refuse_dma : (s.refuse).dma = s.dma := rfl
@[simp] theorem State.refuse_cam : (s.refuse).cam = s.cam := rfl
@[simp] theorem State.refuse_aud : (s.refuse).aud = s.aud := rfl
@[simp] theorem State.refuse_icuStack : (s.refuse).icuStack = s.icuStack := rfl
@[simp] theorem State.refuse_icuFilt : (s.refuse).icuFilt = s.icuFilt := rfl
@[simp] theorem State.refuse_dmaLast : (s.refuse).dmaLast = s.dmaLast := rfl
@[simp] theorem State.refuse_waiting : (s.refuse).waiting = s.waiting := rfl
@[simp] theorem State.refuse_blocked : (s.refuse).blocked = s.blocked := rfl
@[simp] theorem State.refuse_capf : (s.refuse).capf = s.capf := rfl
@[simp] theorem State.refuse_wdtSvc : (s.refuse).wdtSvc = s.wdtSvc := rfl
@[simp] theorem State.refuse_adcSlot : (s.refuse).adcSlot = s.adcSlot := rfl
@[simp] theorem State.refuse_prg : (s.refuse).prg = s.prg := rfl
@[simp] theorem State.refuse_pcie : (s.refuse).pcie = s.pcie := rfl
@[simp] theorem State.refuse_ptp : (s.refuse).ptp = s.ptp := rfl
@[simp] theorem State.refuse_eth : (s.refuse).eth = s.eth := rfl
@[simp] theorem State.refuse_uart : (s.refuse).uart = s.uart := rfl
@[simp] theorem State.refuse_spi : (s.refuse).spi = s.spi := rfl
@[simp] theorem State.refuse_i2c : (s.refuse).i2c = s.i2c := rfl
@[simp] theorem State.refuse_qspi : (s.refuse).qspi = s.qspi := rfl
@[simp] theorem State.refuse_flash : (s.refuse).flash = s.flash := rfl
@[simp] theorem State.refuse_pins : (s.refuse).pins = s.pins := rfl
@[simp] theorem State.refuse_tap : (s.refuse).tap = s.tap := rfl
@[simp] theorem State.refuse_dbg : (s.refuse).dbg = s.dbg := rfl
@[simp] theorem State.refuse_fuses : (s.refuse).fuses = s.fuses := rfl

/-! ### setDma -/

@[simp] theorem State.setDma_pending (n : Nat) (x : DmaSt) : (s.setDma n x).pending = s.pending := rfl
@[simp] theorem State.setDma_now (n : Nat) (x : DmaSt) : (s.setDma n x).now = s.now := rfl
@[simp] theorem State.setDma_freeCtr (n : Nat) (x : DmaSt) : (s.setDma n x).freeCtr = s.freeCtr := rfl
@[simp] theorem State.setDma_regs (n : Nat) (x : DmaSt) : (s.setDma n x).regs = s.regs := rfl
@[simp] theorem State.setDma_mem (n : Nat) (x : DmaSt) : (s.setDma n x).mem = s.mem := rfl
@[simp] theorem State.setDma_ecc (n : Nat) (x : DmaSt) : (s.setDma n x).ecc = s.ecc := rfl
@[simp] theorem State.setDma_undef (n : Nat) (x : DmaSt) : (s.setDma n x).undef = s.undef := rfl
@[simp] theorem State.setDma_cycBase (n : Nat) (x : DmaSt) : (s.setDma n x).cycBase = s.cycBase := rfl
@[simp] theorem State.setDma_cycT0 (n : Nat) (x : DmaSt) : (s.setDma n x).cycT0 = s.cycT0 := rfl
@[simp] theorem State.setDma_cc (n : Nat) (x : DmaSt) : (s.setDma n x).cc = s.cc := rfl
@[simp] theorem State.setDma_eng (n : Nat) (x : DmaSt) : (s.setDma n x).eng = s.eng := rfl
@[simp] theorem State.setDma_phys (n : Nat) (x : DmaSt) : (s.setDma n x).phys = s.phys := rfl
@[simp] theorem State.setDma_units (n : Nat) (x : DmaSt) : (s.setDma n x).units = s.units := rfl
@[simp] theorem State.setDma_nextTid (n : Nat) (x : DmaSt) : (s.setDma n x).nextTid = s.nextTid := rfl
@[simp] theorem State.setDma_heads (n : Nat) (x : DmaSt) : (s.setDma n x).heads = s.heads := rfl
@[simp] theorem State.setDma_boot (n : Nat) (x : DmaSt) : (s.setDma n x).boot = s.boot := rfl
@[simp] theorem State.setDma_prof (n : Nat) (x : DmaSt) : (s.setDma n x).prof = s.prof := rfl
@[simp] theorem State.setDma_mode (n : Nat) (x : DmaSt) : (s.setDma n x).mode = s.mode := rfl
@[simp] theorem State.setDma_store (n : Nat) (x : DmaSt) : (s.setDma n x).store = s.store := rfl
@[simp] theorem State.setDma_blit (n : Nat) (x : DmaSt) : (s.setDma n x).blit = s.blit := rfl
@[simp] theorem State.setDma_cam (n : Nat) (x : DmaSt) : (s.setDma n x).cam = s.cam := rfl
@[simp] theorem State.setDma_aud (n : Nat) (x : DmaSt) : (s.setDma n x).aud = s.aud := rfl
@[simp] theorem State.setDma_icuStack (n : Nat) (x : DmaSt) : (s.setDma n x).icuStack = s.icuStack := rfl
@[simp] theorem State.setDma_icuFilt (n : Nat) (x : DmaSt) : (s.setDma n x).icuFilt = s.icuFilt := rfl
@[simp] theorem State.setDma_dmaLast (n : Nat) (x : DmaSt) : (s.setDma n x).dmaLast = s.dmaLast := rfl
@[simp] theorem State.setDma_waiting (n : Nat) (x : DmaSt) : (s.setDma n x).waiting = s.waiting := rfl
@[simp] theorem State.setDma_blocked (n : Nat) (x : DmaSt) : (s.setDma n x).blocked = s.blocked := rfl
@[simp] theorem State.setDma_capf (n : Nat) (x : DmaSt) : (s.setDma n x).capf = s.capf := rfl
@[simp] theorem State.setDma_wdtSvc (n : Nat) (x : DmaSt) : (s.setDma n x).wdtSvc = s.wdtSvc := rfl
@[simp] theorem State.setDma_adcSlot (n : Nat) (x : DmaSt) : (s.setDma n x).adcSlot = s.adcSlot := rfl
@[simp] theorem State.setDma_prg (n : Nat) (x : DmaSt) : (s.setDma n x).prg = s.prg := rfl
@[simp] theorem State.setDma_pcie (n : Nat) (x : DmaSt) : (s.setDma n x).pcie = s.pcie := rfl
@[simp] theorem State.setDma_ptp (n : Nat) (x : DmaSt) : (s.setDma n x).ptp = s.ptp := rfl
@[simp] theorem State.setDma_eth (n : Nat) (x : DmaSt) : (s.setDma n x).eth = s.eth := rfl
@[simp] theorem State.setDma_uart (n : Nat) (x : DmaSt) : (s.setDma n x).uart = s.uart := rfl
@[simp] theorem State.setDma_spi (n : Nat) (x : DmaSt) : (s.setDma n x).spi = s.spi := rfl
@[simp] theorem State.setDma_i2c (n : Nat) (x : DmaSt) : (s.setDma n x).i2c = s.i2c := rfl
@[simp] theorem State.setDma_qspi (n : Nat) (x : DmaSt) : (s.setDma n x).qspi = s.qspi := rfl
@[simp] theorem State.setDma_flash (n : Nat) (x : DmaSt) : (s.setDma n x).flash = s.flash := rfl
@[simp] theorem State.setDma_pins (n : Nat) (x : DmaSt) : (s.setDma n x).pins = s.pins := rfl
@[simp] theorem State.setDma_tap (n : Nat) (x : DmaSt) : (s.setDma n x).tap = s.tap := rfl
@[simp] theorem State.setDma_dbg (n : Nat) (x : DmaSt) : (s.setDma n x).dbg = s.dbg := rfl
@[simp] theorem State.setDma_fuses (n : Nat) (x : DmaSt) : (s.setDma n x).fuses = s.fuses := rfl
@[simp] theorem State.setDma_resp (n : Nat) (x : DmaSt) : (s.setDma n x).resp = s.resp := rfl

/-! ### setCam -/

@[simp] theorem State.setCam_pending (n : Nat) (x : CamSt) : (s.setCam n x).pending = s.pending := rfl
@[simp] theorem State.setCam_now (n : Nat) (x : CamSt) : (s.setCam n x).now = s.now := rfl
@[simp] theorem State.setCam_freeCtr (n : Nat) (x : CamSt) : (s.setCam n x).freeCtr = s.freeCtr := rfl
@[simp] theorem State.setCam_regs (n : Nat) (x : CamSt) : (s.setCam n x).regs = s.regs := rfl
@[simp] theorem State.setCam_mem (n : Nat) (x : CamSt) : (s.setCam n x).mem = s.mem := rfl
@[simp] theorem State.setCam_ecc (n : Nat) (x : CamSt) : (s.setCam n x).ecc = s.ecc := rfl
@[simp] theorem State.setCam_undef (n : Nat) (x : CamSt) : (s.setCam n x).undef = s.undef := rfl
@[simp] theorem State.setCam_cycBase (n : Nat) (x : CamSt) : (s.setCam n x).cycBase = s.cycBase := rfl
@[simp] theorem State.setCam_cycT0 (n : Nat) (x : CamSt) : (s.setCam n x).cycT0 = s.cycT0 := rfl
@[simp] theorem State.setCam_cc (n : Nat) (x : CamSt) : (s.setCam n x).cc = s.cc := rfl
@[simp] theorem State.setCam_eng (n : Nat) (x : CamSt) : (s.setCam n x).eng = s.eng := rfl
@[simp] theorem State.setCam_phys (n : Nat) (x : CamSt) : (s.setCam n x).phys = s.phys := rfl
@[simp] theorem State.setCam_units (n : Nat) (x : CamSt) : (s.setCam n x).units = s.units := rfl
@[simp] theorem State.setCam_nextTid (n : Nat) (x : CamSt) : (s.setCam n x).nextTid = s.nextTid := rfl
@[simp] theorem State.setCam_heads (n : Nat) (x : CamSt) : (s.setCam n x).heads = s.heads := rfl
@[simp] theorem State.setCam_boot (n : Nat) (x : CamSt) : (s.setCam n x).boot = s.boot := rfl
@[simp] theorem State.setCam_prof (n : Nat) (x : CamSt) : (s.setCam n x).prof = s.prof := rfl
@[simp] theorem State.setCam_mode (n : Nat) (x : CamSt) : (s.setCam n x).mode = s.mode := rfl
@[simp] theorem State.setCam_store (n : Nat) (x : CamSt) : (s.setCam n x).store = s.store := rfl
@[simp] theorem State.setCam_blit (n : Nat) (x : CamSt) : (s.setCam n x).blit = s.blit := rfl
@[simp] theorem State.setCam_dma (n : Nat) (x : CamSt) : (s.setCam n x).dma = s.dma := rfl
@[simp] theorem State.setCam_aud (n : Nat) (x : CamSt) : (s.setCam n x).aud = s.aud := rfl
@[simp] theorem State.setCam_icuStack (n : Nat) (x : CamSt) : (s.setCam n x).icuStack = s.icuStack := rfl
@[simp] theorem State.setCam_icuFilt (n : Nat) (x : CamSt) : (s.setCam n x).icuFilt = s.icuFilt := rfl
@[simp] theorem State.setCam_dmaLast (n : Nat) (x : CamSt) : (s.setCam n x).dmaLast = s.dmaLast := rfl
@[simp] theorem State.setCam_waiting (n : Nat) (x : CamSt) : (s.setCam n x).waiting = s.waiting := rfl
@[simp] theorem State.setCam_blocked (n : Nat) (x : CamSt) : (s.setCam n x).blocked = s.blocked := rfl
@[simp] theorem State.setCam_capf (n : Nat) (x : CamSt) : (s.setCam n x).capf = s.capf := rfl
@[simp] theorem State.setCam_wdtSvc (n : Nat) (x : CamSt) : (s.setCam n x).wdtSvc = s.wdtSvc := rfl
@[simp] theorem State.setCam_adcSlot (n : Nat) (x : CamSt) : (s.setCam n x).adcSlot = s.adcSlot := rfl
@[simp] theorem State.setCam_prg (n : Nat) (x : CamSt) : (s.setCam n x).prg = s.prg := rfl
@[simp] theorem State.setCam_pcie (n : Nat) (x : CamSt) : (s.setCam n x).pcie = s.pcie := rfl
@[simp] theorem State.setCam_ptp (n : Nat) (x : CamSt) : (s.setCam n x).ptp = s.ptp := rfl
@[simp] theorem State.setCam_eth (n : Nat) (x : CamSt) : (s.setCam n x).eth = s.eth := rfl
@[simp] theorem State.setCam_uart (n : Nat) (x : CamSt) : (s.setCam n x).uart = s.uart := rfl
@[simp] theorem State.setCam_spi (n : Nat) (x : CamSt) : (s.setCam n x).spi = s.spi := rfl
@[simp] theorem State.setCam_i2c (n : Nat) (x : CamSt) : (s.setCam n x).i2c = s.i2c := rfl
@[simp] theorem State.setCam_qspi (n : Nat) (x : CamSt) : (s.setCam n x).qspi = s.qspi := rfl
@[simp] theorem State.setCam_flash (n : Nat) (x : CamSt) : (s.setCam n x).flash = s.flash := rfl
@[simp] theorem State.setCam_pins (n : Nat) (x : CamSt) : (s.setCam n x).pins = s.pins := rfl
@[simp] theorem State.setCam_tap (n : Nat) (x : CamSt) : (s.setCam n x).tap = s.tap := rfl
@[simp] theorem State.setCam_dbg (n : Nat) (x : CamSt) : (s.setCam n x).dbg = s.dbg := rfl
@[simp] theorem State.setCam_fuses (n : Nat) (x : CamSt) : (s.setCam n x).fuses = s.fuses := rfl
@[simp] theorem State.setCam_resp (n : Nat) (x : CamSt) : (s.setCam n x).resp = s.resp := rfl

/-! ### setEth -/

@[simp] theorem State.setEth_pending (n : Nat) (x : EthSt) : (s.setEth n x).pending = s.pending := rfl
@[simp] theorem State.setEth_now (n : Nat) (x : EthSt) : (s.setEth n x).now = s.now := rfl
@[simp] theorem State.setEth_freeCtr (n : Nat) (x : EthSt) : (s.setEth n x).freeCtr = s.freeCtr := rfl
@[simp] theorem State.setEth_regs (n : Nat) (x : EthSt) : (s.setEth n x).regs = s.regs := rfl
@[simp] theorem State.setEth_mem (n : Nat) (x : EthSt) : (s.setEth n x).mem = s.mem := rfl
@[simp] theorem State.setEth_ecc (n : Nat) (x : EthSt) : (s.setEth n x).ecc = s.ecc := rfl
@[simp] theorem State.setEth_undef (n : Nat) (x : EthSt) : (s.setEth n x).undef = s.undef := rfl
@[simp] theorem State.setEth_cycBase (n : Nat) (x : EthSt) : (s.setEth n x).cycBase = s.cycBase := rfl
@[simp] theorem State.setEth_cycT0 (n : Nat) (x : EthSt) : (s.setEth n x).cycT0 = s.cycT0 := rfl
@[simp] theorem State.setEth_cc (n : Nat) (x : EthSt) : (s.setEth n x).cc = s.cc := rfl
@[simp] theorem State.setEth_eng (n : Nat) (x : EthSt) : (s.setEth n x).eng = s.eng := rfl
@[simp] theorem State.setEth_phys (n : Nat) (x : EthSt) : (s.setEth n x).phys = s.phys := rfl
@[simp] theorem State.setEth_units (n : Nat) (x : EthSt) : (s.setEth n x).units = s.units := rfl
@[simp] theorem State.setEth_nextTid (n : Nat) (x : EthSt) : (s.setEth n x).nextTid = s.nextTid := rfl
@[simp] theorem State.setEth_heads (n : Nat) (x : EthSt) : (s.setEth n x).heads = s.heads := rfl
@[simp] theorem State.setEth_boot (n : Nat) (x : EthSt) : (s.setEth n x).boot = s.boot := rfl
@[simp] theorem State.setEth_prof (n : Nat) (x : EthSt) : (s.setEth n x).prof = s.prof := rfl
@[simp] theorem State.setEth_mode (n : Nat) (x : EthSt) : (s.setEth n x).mode = s.mode := rfl
@[simp] theorem State.setEth_store (n : Nat) (x : EthSt) : (s.setEth n x).store = s.store := rfl
@[simp] theorem State.setEth_blit (n : Nat) (x : EthSt) : (s.setEth n x).blit = s.blit := rfl
@[simp] theorem State.setEth_dma (n : Nat) (x : EthSt) : (s.setEth n x).dma = s.dma := rfl
@[simp] theorem State.setEth_cam (n : Nat) (x : EthSt) : (s.setEth n x).cam = s.cam := rfl
@[simp] theorem State.setEth_aud (n : Nat) (x : EthSt) : (s.setEth n x).aud = s.aud := rfl
@[simp] theorem State.setEth_icuStack (n : Nat) (x : EthSt) : (s.setEth n x).icuStack = s.icuStack := rfl
@[simp] theorem State.setEth_icuFilt (n : Nat) (x : EthSt) : (s.setEth n x).icuFilt = s.icuFilt := rfl
@[simp] theorem State.setEth_dmaLast (n : Nat) (x : EthSt) : (s.setEth n x).dmaLast = s.dmaLast := rfl
@[simp] theorem State.setEth_waiting (n : Nat) (x : EthSt) : (s.setEth n x).waiting = s.waiting := rfl
@[simp] theorem State.setEth_blocked (n : Nat) (x : EthSt) : (s.setEth n x).blocked = s.blocked := rfl
@[simp] theorem State.setEth_capf (n : Nat) (x : EthSt) : (s.setEth n x).capf = s.capf := rfl
@[simp] theorem State.setEth_wdtSvc (n : Nat) (x : EthSt) : (s.setEth n x).wdtSvc = s.wdtSvc := rfl
@[simp] theorem State.setEth_adcSlot (n : Nat) (x : EthSt) : (s.setEth n x).adcSlot = s.adcSlot := rfl
@[simp] theorem State.setEth_prg (n : Nat) (x : EthSt) : (s.setEth n x).prg = s.prg := rfl
@[simp] theorem State.setEth_pcie (n : Nat) (x : EthSt) : (s.setEth n x).pcie = s.pcie := rfl
@[simp] theorem State.setEth_ptp (n : Nat) (x : EthSt) : (s.setEth n x).ptp = s.ptp := rfl
@[simp] theorem State.setEth_uart (n : Nat) (x : EthSt) : (s.setEth n x).uart = s.uart := rfl
@[simp] theorem State.setEth_spi (n : Nat) (x : EthSt) : (s.setEth n x).spi = s.spi := rfl
@[simp] theorem State.setEth_i2c (n : Nat) (x : EthSt) : (s.setEth n x).i2c = s.i2c := rfl
@[simp] theorem State.setEth_qspi (n : Nat) (x : EthSt) : (s.setEth n x).qspi = s.qspi := rfl
@[simp] theorem State.setEth_flash (n : Nat) (x : EthSt) : (s.setEth n x).flash = s.flash := rfl
@[simp] theorem State.setEth_pins (n : Nat) (x : EthSt) : (s.setEth n x).pins = s.pins := rfl
@[simp] theorem State.setEth_tap (n : Nat) (x : EthSt) : (s.setEth n x).tap = s.tap := rfl
@[simp] theorem State.setEth_dbg (n : Nat) (x : EthSt) : (s.setEth n x).dbg = s.dbg := rfl
@[simp] theorem State.setEth_fuses (n : Nat) (x : EthSt) : (s.setEth n x).fuses = s.fuses := rfl
@[simp] theorem State.setEth_resp (n : Nat) (x : EthSt) : (s.setEth n x).resp = s.resp := rfl

/-! ### setUart -/

@[simp] theorem State.setUart_pending (n : Nat) (x : FifoSt) : (s.setUart n x).pending = s.pending := rfl
@[simp] theorem State.setUart_now (n : Nat) (x : FifoSt) : (s.setUart n x).now = s.now := rfl
@[simp] theorem State.setUart_freeCtr (n : Nat) (x : FifoSt) : (s.setUart n x).freeCtr = s.freeCtr := rfl
@[simp] theorem State.setUart_regs (n : Nat) (x : FifoSt) : (s.setUart n x).regs = s.regs := rfl
@[simp] theorem State.setUart_mem (n : Nat) (x : FifoSt) : (s.setUart n x).mem = s.mem := rfl
@[simp] theorem State.setUart_ecc (n : Nat) (x : FifoSt) : (s.setUart n x).ecc = s.ecc := rfl
@[simp] theorem State.setUart_undef (n : Nat) (x : FifoSt) : (s.setUart n x).undef = s.undef := rfl
@[simp] theorem State.setUart_cycBase (n : Nat) (x : FifoSt) : (s.setUart n x).cycBase = s.cycBase := rfl
@[simp] theorem State.setUart_cycT0 (n : Nat) (x : FifoSt) : (s.setUart n x).cycT0 = s.cycT0 := rfl
@[simp] theorem State.setUart_cc (n : Nat) (x : FifoSt) : (s.setUart n x).cc = s.cc := rfl
@[simp] theorem State.setUart_eng (n : Nat) (x : FifoSt) : (s.setUart n x).eng = s.eng := rfl
@[simp] theorem State.setUart_phys (n : Nat) (x : FifoSt) : (s.setUart n x).phys = s.phys := rfl
@[simp] theorem State.setUart_units (n : Nat) (x : FifoSt) : (s.setUart n x).units = s.units := rfl
@[simp] theorem State.setUart_nextTid (n : Nat) (x : FifoSt) : (s.setUart n x).nextTid = s.nextTid := rfl
@[simp] theorem State.setUart_heads (n : Nat) (x : FifoSt) : (s.setUart n x).heads = s.heads := rfl
@[simp] theorem State.setUart_boot (n : Nat) (x : FifoSt) : (s.setUart n x).boot = s.boot := rfl
@[simp] theorem State.setUart_prof (n : Nat) (x : FifoSt) : (s.setUart n x).prof = s.prof := rfl
@[simp] theorem State.setUart_mode (n : Nat) (x : FifoSt) : (s.setUart n x).mode = s.mode := rfl
@[simp] theorem State.setUart_store (n : Nat) (x : FifoSt) : (s.setUart n x).store = s.store := rfl
@[simp] theorem State.setUart_blit (n : Nat) (x : FifoSt) : (s.setUart n x).blit = s.blit := rfl
@[simp] theorem State.setUart_dma (n : Nat) (x : FifoSt) : (s.setUart n x).dma = s.dma := rfl
@[simp] theorem State.setUart_cam (n : Nat) (x : FifoSt) : (s.setUart n x).cam = s.cam := rfl
@[simp] theorem State.setUart_aud (n : Nat) (x : FifoSt) : (s.setUart n x).aud = s.aud := rfl
@[simp] theorem State.setUart_icuStack (n : Nat) (x : FifoSt) : (s.setUart n x).icuStack = s.icuStack := rfl
@[simp] theorem State.setUart_icuFilt (n : Nat) (x : FifoSt) : (s.setUart n x).icuFilt = s.icuFilt := rfl
@[simp] theorem State.setUart_dmaLast (n : Nat) (x : FifoSt) : (s.setUart n x).dmaLast = s.dmaLast := rfl
@[simp] theorem State.setUart_waiting (n : Nat) (x : FifoSt) : (s.setUart n x).waiting = s.waiting := rfl
@[simp] theorem State.setUart_blocked (n : Nat) (x : FifoSt) : (s.setUart n x).blocked = s.blocked := rfl
@[simp] theorem State.setUart_capf (n : Nat) (x : FifoSt) : (s.setUart n x).capf = s.capf := rfl
@[simp] theorem State.setUart_wdtSvc (n : Nat) (x : FifoSt) : (s.setUart n x).wdtSvc = s.wdtSvc := rfl
@[simp] theorem State.setUart_adcSlot (n : Nat) (x : FifoSt) : (s.setUart n x).adcSlot = s.adcSlot := rfl
@[simp] theorem State.setUart_prg (n : Nat) (x : FifoSt) : (s.setUart n x).prg = s.prg := rfl
@[simp] theorem State.setUart_pcie (n : Nat) (x : FifoSt) : (s.setUart n x).pcie = s.pcie := rfl
@[simp] theorem State.setUart_ptp (n : Nat) (x : FifoSt) : (s.setUart n x).ptp = s.ptp := rfl
@[simp] theorem State.setUart_eth (n : Nat) (x : FifoSt) : (s.setUart n x).eth = s.eth := rfl
@[simp] theorem State.setUart_spi (n : Nat) (x : FifoSt) : (s.setUart n x).spi = s.spi := rfl
@[simp] theorem State.setUart_i2c (n : Nat) (x : FifoSt) : (s.setUart n x).i2c = s.i2c := rfl
@[simp] theorem State.setUart_qspi (n : Nat) (x : FifoSt) : (s.setUart n x).qspi = s.qspi := rfl
@[simp] theorem State.setUart_flash (n : Nat) (x : FifoSt) : (s.setUart n x).flash = s.flash := rfl
@[simp] theorem State.setUart_pins (n : Nat) (x : FifoSt) : (s.setUart n x).pins = s.pins := rfl
@[simp] theorem State.setUart_tap (n : Nat) (x : FifoSt) : (s.setUart n x).tap = s.tap := rfl
@[simp] theorem State.setUart_dbg (n : Nat) (x : FifoSt) : (s.setUart n x).dbg = s.dbg := rfl
@[simp] theorem State.setUart_fuses (n : Nat) (x : FifoSt) : (s.setUart n x).fuses = s.fuses := rfl
@[simp] theorem State.setUart_resp (n : Nat) (x : FifoSt) : (s.setUart n x).resp = s.resp := rfl

/-! ### setSpi -/

@[simp] theorem State.setSpi_pending (n : Nat) (x : FifoSt) : (s.setSpi n x).pending = s.pending := rfl
@[simp] theorem State.setSpi_now (n : Nat) (x : FifoSt) : (s.setSpi n x).now = s.now := rfl
@[simp] theorem State.setSpi_freeCtr (n : Nat) (x : FifoSt) : (s.setSpi n x).freeCtr = s.freeCtr := rfl
@[simp] theorem State.setSpi_regs (n : Nat) (x : FifoSt) : (s.setSpi n x).regs = s.regs := rfl
@[simp] theorem State.setSpi_mem (n : Nat) (x : FifoSt) : (s.setSpi n x).mem = s.mem := rfl
@[simp] theorem State.setSpi_ecc (n : Nat) (x : FifoSt) : (s.setSpi n x).ecc = s.ecc := rfl
@[simp] theorem State.setSpi_undef (n : Nat) (x : FifoSt) : (s.setSpi n x).undef = s.undef := rfl
@[simp] theorem State.setSpi_cycBase (n : Nat) (x : FifoSt) : (s.setSpi n x).cycBase = s.cycBase := rfl
@[simp] theorem State.setSpi_cycT0 (n : Nat) (x : FifoSt) : (s.setSpi n x).cycT0 = s.cycT0 := rfl
@[simp] theorem State.setSpi_cc (n : Nat) (x : FifoSt) : (s.setSpi n x).cc = s.cc := rfl
@[simp] theorem State.setSpi_eng (n : Nat) (x : FifoSt) : (s.setSpi n x).eng = s.eng := rfl
@[simp] theorem State.setSpi_phys (n : Nat) (x : FifoSt) : (s.setSpi n x).phys = s.phys := rfl
@[simp] theorem State.setSpi_units (n : Nat) (x : FifoSt) : (s.setSpi n x).units = s.units := rfl
@[simp] theorem State.setSpi_nextTid (n : Nat) (x : FifoSt) : (s.setSpi n x).nextTid = s.nextTid := rfl
@[simp] theorem State.setSpi_heads (n : Nat) (x : FifoSt) : (s.setSpi n x).heads = s.heads := rfl
@[simp] theorem State.setSpi_boot (n : Nat) (x : FifoSt) : (s.setSpi n x).boot = s.boot := rfl
@[simp] theorem State.setSpi_prof (n : Nat) (x : FifoSt) : (s.setSpi n x).prof = s.prof := rfl
@[simp] theorem State.setSpi_mode (n : Nat) (x : FifoSt) : (s.setSpi n x).mode = s.mode := rfl
@[simp] theorem State.setSpi_store (n : Nat) (x : FifoSt) : (s.setSpi n x).store = s.store := rfl
@[simp] theorem State.setSpi_blit (n : Nat) (x : FifoSt) : (s.setSpi n x).blit = s.blit := rfl
@[simp] theorem State.setSpi_dma (n : Nat) (x : FifoSt) : (s.setSpi n x).dma = s.dma := rfl
@[simp] theorem State.setSpi_cam (n : Nat) (x : FifoSt) : (s.setSpi n x).cam = s.cam := rfl
@[simp] theorem State.setSpi_aud (n : Nat) (x : FifoSt) : (s.setSpi n x).aud = s.aud := rfl
@[simp] theorem State.setSpi_icuStack (n : Nat) (x : FifoSt) : (s.setSpi n x).icuStack = s.icuStack := rfl
@[simp] theorem State.setSpi_icuFilt (n : Nat) (x : FifoSt) : (s.setSpi n x).icuFilt = s.icuFilt := rfl
@[simp] theorem State.setSpi_dmaLast (n : Nat) (x : FifoSt) : (s.setSpi n x).dmaLast = s.dmaLast := rfl
@[simp] theorem State.setSpi_waiting (n : Nat) (x : FifoSt) : (s.setSpi n x).waiting = s.waiting := rfl
@[simp] theorem State.setSpi_blocked (n : Nat) (x : FifoSt) : (s.setSpi n x).blocked = s.blocked := rfl
@[simp] theorem State.setSpi_capf (n : Nat) (x : FifoSt) : (s.setSpi n x).capf = s.capf := rfl
@[simp] theorem State.setSpi_wdtSvc (n : Nat) (x : FifoSt) : (s.setSpi n x).wdtSvc = s.wdtSvc := rfl
@[simp] theorem State.setSpi_adcSlot (n : Nat) (x : FifoSt) : (s.setSpi n x).adcSlot = s.adcSlot := rfl
@[simp] theorem State.setSpi_prg (n : Nat) (x : FifoSt) : (s.setSpi n x).prg = s.prg := rfl
@[simp] theorem State.setSpi_pcie (n : Nat) (x : FifoSt) : (s.setSpi n x).pcie = s.pcie := rfl
@[simp] theorem State.setSpi_ptp (n : Nat) (x : FifoSt) : (s.setSpi n x).ptp = s.ptp := rfl
@[simp] theorem State.setSpi_eth (n : Nat) (x : FifoSt) : (s.setSpi n x).eth = s.eth := rfl
@[simp] theorem State.setSpi_uart (n : Nat) (x : FifoSt) : (s.setSpi n x).uart = s.uart := rfl
@[simp] theorem State.setSpi_i2c (n : Nat) (x : FifoSt) : (s.setSpi n x).i2c = s.i2c := rfl
@[simp] theorem State.setSpi_qspi (n : Nat) (x : FifoSt) : (s.setSpi n x).qspi = s.qspi := rfl
@[simp] theorem State.setSpi_flash (n : Nat) (x : FifoSt) : (s.setSpi n x).flash = s.flash := rfl
@[simp] theorem State.setSpi_pins (n : Nat) (x : FifoSt) : (s.setSpi n x).pins = s.pins := rfl
@[simp] theorem State.setSpi_tap (n : Nat) (x : FifoSt) : (s.setSpi n x).tap = s.tap := rfl
@[simp] theorem State.setSpi_dbg (n : Nat) (x : FifoSt) : (s.setSpi n x).dbg = s.dbg := rfl
@[simp] theorem State.setSpi_fuses (n : Nat) (x : FifoSt) : (s.setSpi n x).fuses = s.fuses := rfl
@[simp] theorem State.setSpi_resp (n : Nat) (x : FifoSt) : (s.setSpi n x).resp = s.resp := rfl

/-! ### setI2c -/

@[simp] theorem State.setI2c_pending (n : Nat) (x : FifoSt) : (s.setI2c n x).pending = s.pending := rfl
@[simp] theorem State.setI2c_now (n : Nat) (x : FifoSt) : (s.setI2c n x).now = s.now := rfl
@[simp] theorem State.setI2c_freeCtr (n : Nat) (x : FifoSt) : (s.setI2c n x).freeCtr = s.freeCtr := rfl
@[simp] theorem State.setI2c_regs (n : Nat) (x : FifoSt) : (s.setI2c n x).regs = s.regs := rfl
@[simp] theorem State.setI2c_mem (n : Nat) (x : FifoSt) : (s.setI2c n x).mem = s.mem := rfl
@[simp] theorem State.setI2c_ecc (n : Nat) (x : FifoSt) : (s.setI2c n x).ecc = s.ecc := rfl
@[simp] theorem State.setI2c_undef (n : Nat) (x : FifoSt) : (s.setI2c n x).undef = s.undef := rfl
@[simp] theorem State.setI2c_cycBase (n : Nat) (x : FifoSt) : (s.setI2c n x).cycBase = s.cycBase := rfl
@[simp] theorem State.setI2c_cycT0 (n : Nat) (x : FifoSt) : (s.setI2c n x).cycT0 = s.cycT0 := rfl
@[simp] theorem State.setI2c_cc (n : Nat) (x : FifoSt) : (s.setI2c n x).cc = s.cc := rfl
@[simp] theorem State.setI2c_eng (n : Nat) (x : FifoSt) : (s.setI2c n x).eng = s.eng := rfl
@[simp] theorem State.setI2c_phys (n : Nat) (x : FifoSt) : (s.setI2c n x).phys = s.phys := rfl
@[simp] theorem State.setI2c_units (n : Nat) (x : FifoSt) : (s.setI2c n x).units = s.units := rfl
@[simp] theorem State.setI2c_nextTid (n : Nat) (x : FifoSt) : (s.setI2c n x).nextTid = s.nextTid := rfl
@[simp] theorem State.setI2c_heads (n : Nat) (x : FifoSt) : (s.setI2c n x).heads = s.heads := rfl
@[simp] theorem State.setI2c_boot (n : Nat) (x : FifoSt) : (s.setI2c n x).boot = s.boot := rfl
@[simp] theorem State.setI2c_prof (n : Nat) (x : FifoSt) : (s.setI2c n x).prof = s.prof := rfl
@[simp] theorem State.setI2c_mode (n : Nat) (x : FifoSt) : (s.setI2c n x).mode = s.mode := rfl
@[simp] theorem State.setI2c_store (n : Nat) (x : FifoSt) : (s.setI2c n x).store = s.store := rfl
@[simp] theorem State.setI2c_blit (n : Nat) (x : FifoSt) : (s.setI2c n x).blit = s.blit := rfl
@[simp] theorem State.setI2c_dma (n : Nat) (x : FifoSt) : (s.setI2c n x).dma = s.dma := rfl
@[simp] theorem State.setI2c_cam (n : Nat) (x : FifoSt) : (s.setI2c n x).cam = s.cam := rfl
@[simp] theorem State.setI2c_aud (n : Nat) (x : FifoSt) : (s.setI2c n x).aud = s.aud := rfl
@[simp] theorem State.setI2c_icuStack (n : Nat) (x : FifoSt) : (s.setI2c n x).icuStack = s.icuStack := rfl
@[simp] theorem State.setI2c_icuFilt (n : Nat) (x : FifoSt) : (s.setI2c n x).icuFilt = s.icuFilt := rfl
@[simp] theorem State.setI2c_dmaLast (n : Nat) (x : FifoSt) : (s.setI2c n x).dmaLast = s.dmaLast := rfl
@[simp] theorem State.setI2c_waiting (n : Nat) (x : FifoSt) : (s.setI2c n x).waiting = s.waiting := rfl
@[simp] theorem State.setI2c_blocked (n : Nat) (x : FifoSt) : (s.setI2c n x).blocked = s.blocked := rfl
@[simp] theorem State.setI2c_capf (n : Nat) (x : FifoSt) : (s.setI2c n x).capf = s.capf := rfl
@[simp] theorem State.setI2c_wdtSvc (n : Nat) (x : FifoSt) : (s.setI2c n x).wdtSvc = s.wdtSvc := rfl
@[simp] theorem State.setI2c_adcSlot (n : Nat) (x : FifoSt) : (s.setI2c n x).adcSlot = s.adcSlot := rfl
@[simp] theorem State.setI2c_prg (n : Nat) (x : FifoSt) : (s.setI2c n x).prg = s.prg := rfl
@[simp] theorem State.setI2c_pcie (n : Nat) (x : FifoSt) : (s.setI2c n x).pcie = s.pcie := rfl
@[simp] theorem State.setI2c_ptp (n : Nat) (x : FifoSt) : (s.setI2c n x).ptp = s.ptp := rfl
@[simp] theorem State.setI2c_eth (n : Nat) (x : FifoSt) : (s.setI2c n x).eth = s.eth := rfl
@[simp] theorem State.setI2c_uart (n : Nat) (x : FifoSt) : (s.setI2c n x).uart = s.uart := rfl
@[simp] theorem State.setI2c_spi (n : Nat) (x : FifoSt) : (s.setI2c n x).spi = s.spi := rfl
@[simp] theorem State.setI2c_qspi (n : Nat) (x : FifoSt) : (s.setI2c n x).qspi = s.qspi := rfl
@[simp] theorem State.setI2c_flash (n : Nat) (x : FifoSt) : (s.setI2c n x).flash = s.flash := rfl
@[simp] theorem State.setI2c_pins (n : Nat) (x : FifoSt) : (s.setI2c n x).pins = s.pins := rfl
@[simp] theorem State.setI2c_tap (n : Nat) (x : FifoSt) : (s.setI2c n x).tap = s.tap := rfl
@[simp] theorem State.setI2c_dbg (n : Nat) (x : FifoSt) : (s.setI2c n x).dbg = s.dbg := rfl
@[simp] theorem State.setI2c_fuses (n : Nat) (x : FifoSt) : (s.setI2c n x).fuses = s.fuses := rfl
@[simp] theorem State.setI2c_resp (n : Nat) (x : FifoSt) : (s.setI2c n x).resp = s.resp := rfl

/-! ### setAudSrc -/

@[simp] theorem State.setAudSrc_pending (n : Nat) (x : SrcSt) : (s.setAudSrc n x).pending = s.pending := rfl
@[simp] theorem State.setAudSrc_now (n : Nat) (x : SrcSt) : (s.setAudSrc n x).now = s.now := rfl
@[simp] theorem State.setAudSrc_freeCtr (n : Nat) (x : SrcSt) : (s.setAudSrc n x).freeCtr = s.freeCtr := rfl
@[simp] theorem State.setAudSrc_regs (n : Nat) (x : SrcSt) : (s.setAudSrc n x).regs = s.regs := rfl
@[simp] theorem State.setAudSrc_mem (n : Nat) (x : SrcSt) : (s.setAudSrc n x).mem = s.mem := rfl
@[simp] theorem State.setAudSrc_ecc (n : Nat) (x : SrcSt) : (s.setAudSrc n x).ecc = s.ecc := rfl
@[simp] theorem State.setAudSrc_undef (n : Nat) (x : SrcSt) : (s.setAudSrc n x).undef = s.undef := rfl
@[simp] theorem State.setAudSrc_cycBase (n : Nat) (x : SrcSt) : (s.setAudSrc n x).cycBase = s.cycBase := rfl
@[simp] theorem State.setAudSrc_cycT0 (n : Nat) (x : SrcSt) : (s.setAudSrc n x).cycT0 = s.cycT0 := rfl
@[simp] theorem State.setAudSrc_cc (n : Nat) (x : SrcSt) : (s.setAudSrc n x).cc = s.cc := rfl
@[simp] theorem State.setAudSrc_eng (n : Nat) (x : SrcSt) : (s.setAudSrc n x).eng = s.eng := rfl
@[simp] theorem State.setAudSrc_phys (n : Nat) (x : SrcSt) : (s.setAudSrc n x).phys = s.phys := rfl
@[simp] theorem State.setAudSrc_units (n : Nat) (x : SrcSt) : (s.setAudSrc n x).units = s.units := rfl
@[simp] theorem State.setAudSrc_nextTid (n : Nat) (x : SrcSt) : (s.setAudSrc n x).nextTid = s.nextTid := rfl
@[simp] theorem State.setAudSrc_heads (n : Nat) (x : SrcSt) : (s.setAudSrc n x).heads = s.heads := rfl
@[simp] theorem State.setAudSrc_boot (n : Nat) (x : SrcSt) : (s.setAudSrc n x).boot = s.boot := rfl
@[simp] theorem State.setAudSrc_prof (n : Nat) (x : SrcSt) : (s.setAudSrc n x).prof = s.prof := rfl
@[simp] theorem State.setAudSrc_mode (n : Nat) (x : SrcSt) : (s.setAudSrc n x).mode = s.mode := rfl
@[simp] theorem State.setAudSrc_store (n : Nat) (x : SrcSt) : (s.setAudSrc n x).store = s.store := rfl
@[simp] theorem State.setAudSrc_blit (n : Nat) (x : SrcSt) : (s.setAudSrc n x).blit = s.blit := rfl
@[simp] theorem State.setAudSrc_dma (n : Nat) (x : SrcSt) : (s.setAudSrc n x).dma = s.dma := rfl
@[simp] theorem State.setAudSrc_cam (n : Nat) (x : SrcSt) : (s.setAudSrc n x).cam = s.cam := rfl
@[simp] theorem State.setAudSrc_icuStack (n : Nat) (x : SrcSt) : (s.setAudSrc n x).icuStack = s.icuStack := rfl
@[simp] theorem State.setAudSrc_icuFilt (n : Nat) (x : SrcSt) : (s.setAudSrc n x).icuFilt = s.icuFilt := rfl
@[simp] theorem State.setAudSrc_dmaLast (n : Nat) (x : SrcSt) : (s.setAudSrc n x).dmaLast = s.dmaLast := rfl
@[simp] theorem State.setAudSrc_waiting (n : Nat) (x : SrcSt) : (s.setAudSrc n x).waiting = s.waiting := rfl
@[simp] theorem State.setAudSrc_blocked (n : Nat) (x : SrcSt) : (s.setAudSrc n x).blocked = s.blocked := rfl
@[simp] theorem State.setAudSrc_capf (n : Nat) (x : SrcSt) : (s.setAudSrc n x).capf = s.capf := rfl
@[simp] theorem State.setAudSrc_wdtSvc (n : Nat) (x : SrcSt) : (s.setAudSrc n x).wdtSvc = s.wdtSvc := rfl
@[simp] theorem State.setAudSrc_adcSlot (n : Nat) (x : SrcSt) : (s.setAudSrc n x).adcSlot = s.adcSlot := rfl
@[simp] theorem State.setAudSrc_prg (n : Nat) (x : SrcSt) : (s.setAudSrc n x).prg = s.prg := rfl
@[simp] theorem State.setAudSrc_pcie (n : Nat) (x : SrcSt) : (s.setAudSrc n x).pcie = s.pcie := rfl
@[simp] theorem State.setAudSrc_ptp (n : Nat) (x : SrcSt) : (s.setAudSrc n x).ptp = s.ptp := rfl
@[simp] theorem State.setAudSrc_eth (n : Nat) (x : SrcSt) : (s.setAudSrc n x).eth = s.eth := rfl
@[simp] theorem State.setAudSrc_uart (n : Nat) (x : SrcSt) : (s.setAudSrc n x).uart = s.uart := rfl
@[simp] theorem State.setAudSrc_spi (n : Nat) (x : SrcSt) : (s.setAudSrc n x).spi = s.spi := rfl
@[simp] theorem State.setAudSrc_i2c (n : Nat) (x : SrcSt) : (s.setAudSrc n x).i2c = s.i2c := rfl
@[simp] theorem State.setAudSrc_qspi (n : Nat) (x : SrcSt) : (s.setAudSrc n x).qspi = s.qspi := rfl
@[simp] theorem State.setAudSrc_flash (n : Nat) (x : SrcSt) : (s.setAudSrc n x).flash = s.flash := rfl
@[simp] theorem State.setAudSrc_pins (n : Nat) (x : SrcSt) : (s.setAudSrc n x).pins = s.pins := rfl
@[simp] theorem State.setAudSrc_tap (n : Nat) (x : SrcSt) : (s.setAudSrc n x).tap = s.tap := rfl
@[simp] theorem State.setAudSrc_dbg (n : Nat) (x : SrcSt) : (s.setAudSrc n x).dbg = s.dbg := rfl
@[simp] theorem State.setAudSrc_fuses (n : Nat) (x : SrcSt) : (s.setAudSrc n x).fuses = s.fuses := rfl
@[simp] theorem State.setAudSrc_resp (n : Nat) (x : SrcSt) : (s.setAudSrc n x).resp = s.resp := rfl

/-! ### setAudBus -/

@[simp] theorem State.setAudBus_pending (n : Nat) (x : BusSt) : (s.setAudBus n x).pending = s.pending := rfl
@[simp] theorem State.setAudBus_now (n : Nat) (x : BusSt) : (s.setAudBus n x).now = s.now := rfl
@[simp] theorem State.setAudBus_freeCtr (n : Nat) (x : BusSt) : (s.setAudBus n x).freeCtr = s.freeCtr := rfl
@[simp] theorem State.setAudBus_regs (n : Nat) (x : BusSt) : (s.setAudBus n x).regs = s.regs := rfl
@[simp] theorem State.setAudBus_mem (n : Nat) (x : BusSt) : (s.setAudBus n x).mem = s.mem := rfl
@[simp] theorem State.setAudBus_ecc (n : Nat) (x : BusSt) : (s.setAudBus n x).ecc = s.ecc := rfl
@[simp] theorem State.setAudBus_undef (n : Nat) (x : BusSt) : (s.setAudBus n x).undef = s.undef := rfl
@[simp] theorem State.setAudBus_cycBase (n : Nat) (x : BusSt) : (s.setAudBus n x).cycBase = s.cycBase := rfl
@[simp] theorem State.setAudBus_cycT0 (n : Nat) (x : BusSt) : (s.setAudBus n x).cycT0 = s.cycT0 := rfl
@[simp] theorem State.setAudBus_cc (n : Nat) (x : BusSt) : (s.setAudBus n x).cc = s.cc := rfl
@[simp] theorem State.setAudBus_eng (n : Nat) (x : BusSt) : (s.setAudBus n x).eng = s.eng := rfl
@[simp] theorem State.setAudBus_phys (n : Nat) (x : BusSt) : (s.setAudBus n x).phys = s.phys := rfl
@[simp] theorem State.setAudBus_units (n : Nat) (x : BusSt) : (s.setAudBus n x).units = s.units := rfl
@[simp] theorem State.setAudBus_nextTid (n : Nat) (x : BusSt) : (s.setAudBus n x).nextTid = s.nextTid := rfl
@[simp] theorem State.setAudBus_heads (n : Nat) (x : BusSt) : (s.setAudBus n x).heads = s.heads := rfl
@[simp] theorem State.setAudBus_boot (n : Nat) (x : BusSt) : (s.setAudBus n x).boot = s.boot := rfl
@[simp] theorem State.setAudBus_prof (n : Nat) (x : BusSt) : (s.setAudBus n x).prof = s.prof := rfl
@[simp] theorem State.setAudBus_mode (n : Nat) (x : BusSt) : (s.setAudBus n x).mode = s.mode := rfl
@[simp] theorem State.setAudBus_store (n : Nat) (x : BusSt) : (s.setAudBus n x).store = s.store := rfl
@[simp] theorem State.setAudBus_blit (n : Nat) (x : BusSt) : (s.setAudBus n x).blit = s.blit := rfl
@[simp] theorem State.setAudBus_dma (n : Nat) (x : BusSt) : (s.setAudBus n x).dma = s.dma := rfl
@[simp] theorem State.setAudBus_cam (n : Nat) (x : BusSt) : (s.setAudBus n x).cam = s.cam := rfl
@[simp] theorem State.setAudBus_icuStack (n : Nat) (x : BusSt) : (s.setAudBus n x).icuStack = s.icuStack := rfl
@[simp] theorem State.setAudBus_icuFilt (n : Nat) (x : BusSt) : (s.setAudBus n x).icuFilt = s.icuFilt := rfl
@[simp] theorem State.setAudBus_dmaLast (n : Nat) (x : BusSt) : (s.setAudBus n x).dmaLast = s.dmaLast := rfl
@[simp] theorem State.setAudBus_waiting (n : Nat) (x : BusSt) : (s.setAudBus n x).waiting = s.waiting := rfl
@[simp] theorem State.setAudBus_blocked (n : Nat) (x : BusSt) : (s.setAudBus n x).blocked = s.blocked := rfl
@[simp] theorem State.setAudBus_capf (n : Nat) (x : BusSt) : (s.setAudBus n x).capf = s.capf := rfl
@[simp] theorem State.setAudBus_wdtSvc (n : Nat) (x : BusSt) : (s.setAudBus n x).wdtSvc = s.wdtSvc := rfl
@[simp] theorem State.setAudBus_adcSlot (n : Nat) (x : BusSt) : (s.setAudBus n x).adcSlot = s.adcSlot := rfl
@[simp] theorem State.setAudBus_prg (n : Nat) (x : BusSt) : (s.setAudBus n x).prg = s.prg := rfl
@[simp] theorem State.setAudBus_pcie (n : Nat) (x : BusSt) : (s.setAudBus n x).pcie = s.pcie := rfl
@[simp] theorem State.setAudBus_ptp (n : Nat) (x : BusSt) : (s.setAudBus n x).ptp = s.ptp := rfl
@[simp] theorem State.setAudBus_eth (n : Nat) (x : BusSt) : (s.setAudBus n x).eth = s.eth := rfl
@[simp] theorem State.setAudBus_uart (n : Nat) (x : BusSt) : (s.setAudBus n x).uart = s.uart := rfl
@[simp] theorem State.setAudBus_spi (n : Nat) (x : BusSt) : (s.setAudBus n x).spi = s.spi := rfl
@[simp] theorem State.setAudBus_i2c (n : Nat) (x : BusSt) : (s.setAudBus n x).i2c = s.i2c := rfl
@[simp] theorem State.setAudBus_qspi (n : Nat) (x : BusSt) : (s.setAudBus n x).qspi = s.qspi := rfl
@[simp] theorem State.setAudBus_flash (n : Nat) (x : BusSt) : (s.setAudBus n x).flash = s.flash := rfl
@[simp] theorem State.setAudBus_pins (n : Nat) (x : BusSt) : (s.setAudBus n x).pins = s.pins := rfl
@[simp] theorem State.setAudBus_tap (n : Nat) (x : BusSt) : (s.setAudBus n x).tap = s.tap := rfl
@[simp] theorem State.setAudBus_dbg (n : Nat) (x : BusSt) : (s.setAudBus n x).dbg = s.dbg := rfl
@[simp] theorem State.setAudBus_fuses (n : Nat) (x : BusSt) : (s.setAudBus n x).fuses = s.fuses := rfl
@[simp] theorem State.setAudBus_resp (n : Nat) (x : BusSt) : (s.setAudBus n x).resp = s.resp := rfl

/-! ### setCore -/

@[simp] theorem State.setCore_pending (c : Ctx) (x : CoreSt) : (s.setCore c x).pending = s.pending := by cases c <;> rfl
@[simp] theorem State.setCore_now (c : Ctx) (x : CoreSt) : (s.setCore c x).now = s.now := by cases c <;> rfl
@[simp] theorem State.setCore_freeCtr (c : Ctx) (x : CoreSt) : (s.setCore c x).freeCtr = s.freeCtr := by cases c <;> rfl
@[simp] theorem State.setCore_regs (c : Ctx) (x : CoreSt) : (s.setCore c x).regs = s.regs := by cases c <;> rfl
@[simp] theorem State.setCore_mem (c : Ctx) (x : CoreSt) : (s.setCore c x).mem = s.mem := by cases c <;> rfl
@[simp] theorem State.setCore_ecc (c : Ctx) (x : CoreSt) : (s.setCore c x).ecc = s.ecc := by cases c <;> rfl
@[simp] theorem State.setCore_undef (c : Ctx) (x : CoreSt) : (s.setCore c x).undef = s.undef := by cases c <;> rfl
@[simp] theorem State.setCore_cycBase (c : Ctx) (x : CoreSt) : (s.setCore c x).cycBase = s.cycBase := by cases c <;> rfl
@[simp] theorem State.setCore_cycT0 (c : Ctx) (x : CoreSt) : (s.setCore c x).cycT0 = s.cycT0 := by cases c <;> rfl
@[simp] theorem State.setCore_phys (c : Ctx) (x : CoreSt) : (s.setCore c x).phys = s.phys := by cases c <;> rfl
@[simp] theorem State.setCore_units (c : Ctx) (x : CoreSt) : (s.setCore c x).units = s.units := by cases c <;> rfl
@[simp] theorem State.setCore_nextTid (c : Ctx) (x : CoreSt) : (s.setCore c x).nextTid = s.nextTid := by cases c <;> rfl
@[simp] theorem State.setCore_heads (c : Ctx) (x : CoreSt) : (s.setCore c x).heads = s.heads := by cases c <;> rfl
@[simp] theorem State.setCore_boot (c : Ctx) (x : CoreSt) : (s.setCore c x).boot = s.boot := by cases c <;> rfl
@[simp] theorem State.setCore_prof (c : Ctx) (x : CoreSt) : (s.setCore c x).prof = s.prof := by cases c <;> rfl
@[simp] theorem State.setCore_mode (c : Ctx) (x : CoreSt) : (s.setCore c x).mode = s.mode := by cases c <;> rfl
@[simp] theorem State.setCore_store (c : Ctx) (x : CoreSt) : (s.setCore c x).store = s.store := by cases c <;> rfl
@[simp] theorem State.setCore_blit (c : Ctx) (x : CoreSt) : (s.setCore c x).blit = s.blit := by cases c <;> rfl
@[simp] theorem State.setCore_dma (c : Ctx) (x : CoreSt) : (s.setCore c x).dma = s.dma := by cases c <;> rfl
@[simp] theorem State.setCore_cam (c : Ctx) (x : CoreSt) : (s.setCore c x).cam = s.cam := by cases c <;> rfl
@[simp] theorem State.setCore_aud (c : Ctx) (x : CoreSt) : (s.setCore c x).aud = s.aud := by cases c <;> rfl
@[simp] theorem State.setCore_icuStack (c : Ctx) (x : CoreSt) : (s.setCore c x).icuStack = s.icuStack := by cases c <;> rfl
@[simp] theorem State.setCore_icuFilt (c : Ctx) (x : CoreSt) : (s.setCore c x).icuFilt = s.icuFilt := by cases c <;> rfl
@[simp] theorem State.setCore_dmaLast (c : Ctx) (x : CoreSt) : (s.setCore c x).dmaLast = s.dmaLast := by cases c <;> rfl
@[simp] theorem State.setCore_waiting (c : Ctx) (x : CoreSt) : (s.setCore c x).waiting = s.waiting := by cases c <;> rfl
@[simp] theorem State.setCore_blocked (c : Ctx) (x : CoreSt) : (s.setCore c x).blocked = s.blocked := by cases c <;> rfl
@[simp] theorem State.setCore_capf (c : Ctx) (x : CoreSt) : (s.setCore c x).capf = s.capf := by cases c <;> rfl
@[simp] theorem State.setCore_wdtSvc (c : Ctx) (x : CoreSt) : (s.setCore c x).wdtSvc = s.wdtSvc := by cases c <;> rfl
@[simp] theorem State.setCore_adcSlot (c : Ctx) (x : CoreSt) : (s.setCore c x).adcSlot = s.adcSlot := by cases c <;> rfl
@[simp] theorem State.setCore_prg (c : Ctx) (x : CoreSt) : (s.setCore c x).prg = s.prg := by cases c <;> rfl
@[simp] theorem State.setCore_pcie (c : Ctx) (x : CoreSt) : (s.setCore c x).pcie = s.pcie := by cases c <;> rfl
@[simp] theorem State.setCore_ptp (c : Ctx) (x : CoreSt) : (s.setCore c x).ptp = s.ptp := by cases c <;> rfl
@[simp] theorem State.setCore_eth (c : Ctx) (x : CoreSt) : (s.setCore c x).eth = s.eth := by cases c <;> rfl
@[simp] theorem State.setCore_uart (c : Ctx) (x : CoreSt) : (s.setCore c x).uart = s.uart := by cases c <;> rfl
@[simp] theorem State.setCore_spi (c : Ctx) (x : CoreSt) : (s.setCore c x).spi = s.spi := by cases c <;> rfl
@[simp] theorem State.setCore_i2c (c : Ctx) (x : CoreSt) : (s.setCore c x).i2c = s.i2c := by cases c <;> rfl
@[simp] theorem State.setCore_qspi (c : Ctx) (x : CoreSt) : (s.setCore c x).qspi = s.qspi := by cases c <;> rfl
@[simp] theorem State.setCore_flash (c : Ctx) (x : CoreSt) : (s.setCore c x).flash = s.flash := by cases c <;> rfl
@[simp] theorem State.setCore_pins (c : Ctx) (x : CoreSt) : (s.setCore c x).pins = s.pins := by cases c <;> rfl
@[simp] theorem State.setCore_tap (c : Ctx) (x : CoreSt) : (s.setCore c x).tap = s.tap := by cases c <;> rfl
@[simp] theorem State.setCore_dbg (c : Ctx) (x : CoreSt) : (s.setCore c x).dbg = s.dbg := by cases c <;> rfl
@[simp] theorem State.setCore_fuses (c : Ctx) (x : CoreSt) : (s.setCore c x).fuses = s.fuses := by cases c <;> rfl
@[simp] theorem State.setCore_resp (c : Ctx) (x : CoreSt) : (s.setCore c x).resp = s.resp := by cases c <;> rfl

/-! ### modCore -/

@[simp] theorem State.modCore_pending (c : Ctx) (f : CoreSt → CoreSt) : (s.modCore c f).pending = s.pending := by cases c <;> rfl
@[simp] theorem State.modCore_now (c : Ctx) (f : CoreSt → CoreSt) : (s.modCore c f).now = s.now := by cases c <;> rfl
@[simp] theorem State.modCore_freeCtr (c : Ctx) (f : CoreSt → CoreSt) : (s.modCore c f).freeCtr = s.freeCtr := by cases c <;> rfl
@[simp] theorem State.modCore_regs (c : Ctx) (f : CoreSt → CoreSt) : (s.modCore c f).regs = s.regs := by cases c <;> rfl
@[simp] theorem State.modCore_mem (c : Ctx) (f : CoreSt → CoreSt) : (s.modCore c f).mem = s.mem := by cases c <;> rfl
@[simp] theorem State.modCore_ecc (c : Ctx) (f : CoreSt → CoreSt) : (s.modCore c f).ecc = s.ecc := by cases c <;> rfl
@[simp] theorem State.modCore_undef (c : Ctx) (f : CoreSt → CoreSt) : (s.modCore c f).undef = s.undef := by cases c <;> rfl
@[simp] theorem State.modCore_cycBase (c : Ctx) (f : CoreSt → CoreSt) : (s.modCore c f).cycBase = s.cycBase := by cases c <;> rfl
@[simp] theorem State.modCore_cycT0 (c : Ctx) (f : CoreSt → CoreSt) : (s.modCore c f).cycT0 = s.cycT0 := by cases c <;> rfl
@[simp] theorem State.modCore_phys (c : Ctx) (f : CoreSt → CoreSt) : (s.modCore c f).phys = s.phys := by cases c <;> rfl
@[simp] theorem State.modCore_units (c : Ctx) (f : CoreSt → CoreSt) : (s.modCore c f).units = s.units := by cases c <;> rfl
@[simp] theorem State.modCore_nextTid (c : Ctx) (f : CoreSt → CoreSt) : (s.modCore c f).nextTid = s.nextTid := by cases c <;> rfl
@[simp] theorem State.modCore_heads (c : Ctx) (f : CoreSt → CoreSt) : (s.modCore c f).heads = s.heads := by cases c <;> rfl
@[simp] theorem State.modCore_boot (c : Ctx) (f : CoreSt → CoreSt) : (s.modCore c f).boot = s.boot := by cases c <;> rfl
@[simp] theorem State.modCore_prof (c : Ctx) (f : CoreSt → CoreSt) : (s.modCore c f).prof = s.prof := by cases c <;> rfl
@[simp] theorem State.modCore_mode (c : Ctx) (f : CoreSt → CoreSt) : (s.modCore c f).mode = s.mode := by cases c <;> rfl
@[simp] theorem State.modCore_store (c : Ctx) (f : CoreSt → CoreSt) : (s.modCore c f).store = s.store := by cases c <;> rfl
@[simp] theorem State.modCore_blit (c : Ctx) (f : CoreSt → CoreSt) : (s.modCore c f).blit = s.blit := by cases c <;> rfl
@[simp] theorem State.modCore_dma (c : Ctx) (f : CoreSt → CoreSt) : (s.modCore c f).dma = s.dma := by cases c <;> rfl
@[simp] theorem State.modCore_cam (c : Ctx) (f : CoreSt → CoreSt) : (s.modCore c f).cam = s.cam := by cases c <;> rfl
@[simp] theorem State.modCore_aud (c : Ctx) (f : CoreSt → CoreSt) : (s.modCore c f).aud = s.aud := by cases c <;> rfl
@[simp] theorem State.modCore_icuStack (c : Ctx) (f : CoreSt → CoreSt) : (s.modCore c f).icuStack = s.icuStack := by cases c <;> rfl
@[simp] theorem State.modCore_icuFilt (c : Ctx) (f : CoreSt → CoreSt) : (s.modCore c f).icuFilt = s.icuFilt := by cases c <;> rfl
@[simp] theorem State.modCore_dmaLast (c : Ctx) (f : CoreSt → CoreSt) : (s.modCore c f).dmaLast = s.dmaLast := by cases c <;> rfl
@[simp] theorem State.modCore_waiting (c : Ctx) (f : CoreSt → CoreSt) : (s.modCore c f).waiting = s.waiting := by cases c <;> rfl
@[simp] theorem State.modCore_blocked (c : Ctx) (f : CoreSt → CoreSt) : (s.modCore c f).blocked = s.blocked := by cases c <;> rfl
@[simp] theorem State.modCore_capf (c : Ctx) (f : CoreSt → CoreSt) : (s.modCore c f).capf = s.capf := by cases c <;> rfl
@[simp] theorem State.modCore_wdtSvc (c : Ctx) (f : CoreSt → CoreSt) : (s.modCore c f).wdtSvc = s.wdtSvc := by cases c <;> rfl
@[simp] theorem State.modCore_adcSlot (c : Ctx) (f : CoreSt → CoreSt) : (s.modCore c f).adcSlot = s.adcSlot := by cases c <;> rfl
@[simp] theorem State.modCore_prg (c : Ctx) (f : CoreSt → CoreSt) : (s.modCore c f).prg = s.prg := by cases c <;> rfl
@[simp] theorem State.modCore_pcie (c : Ctx) (f : CoreSt → CoreSt) : (s.modCore c f).pcie = s.pcie := by cases c <;> rfl
@[simp] theorem State.modCore_ptp (c : Ctx) (f : CoreSt → CoreSt) : (s.modCore c f).ptp = s.ptp := by cases c <;> rfl
@[simp] theorem State.modCore_eth (c : Ctx) (f : CoreSt → CoreSt) : (s.modCore c f).eth = s.eth := by cases c <;> rfl
@[simp] theorem State.modCore_uart (c : Ctx) (f : CoreSt → CoreSt) : (s.modCore c f).uart = s.uart := by cases c <;> rfl
@[simp] theorem State.modCore_spi (c : Ctx) (f : CoreSt → CoreSt) : (s.modCore c f).spi = s.spi := by cases c <;> rfl
@[simp] theorem State.modCore_i2c (c : Ctx) (f : CoreSt → CoreSt) : (s.modCore c f).i2c = s.i2c := by cases c <;> rfl
@[simp] theorem State.modCore_qspi (c : Ctx) (f : CoreSt → CoreSt) : (s.modCore c f).qspi = s.qspi := by cases c <;> rfl
@[simp] theorem State.modCore_flash (c : Ctx) (f : CoreSt → CoreSt) : (s.modCore c f).flash = s.flash := by cases c <;> rfl
@[simp] theorem State.modCore_pins (c : Ctx) (f : CoreSt → CoreSt) : (s.modCore c f).pins = s.pins := by cases c <;> rfl
@[simp] theorem State.modCore_tap (c : Ctx) (f : CoreSt → CoreSt) : (s.modCore c f).tap = s.tap := by cases c <;> rfl
@[simp] theorem State.modCore_dbg (c : Ctx) (f : CoreSt → CoreSt) : (s.modCore c f).dbg = s.dbg := by cases c <;> rfl
@[simp] theorem State.modCore_fuses (c : Ctx) (f : CoreSt → CoreSt) : (s.modCore c f).fuses = s.fuses := by cases c <;> rfl
@[simp] theorem State.modCore_resp (c : Ctx) (f : CoreSt → CoreSt) : (s.modCore c f).resp = s.resp := by cases c <;> rfl

/-! ### modUnit -/

@[simp] theorem State.modUnit_pending (u : Nat) (f : UnitSt → UnitSt) : (s.modUnit u f).pending = s.pending := by unfold State.modUnit; split <;> rfl
@[simp] theorem State.modUnit_now (u : Nat) (f : UnitSt → UnitSt) : (s.modUnit u f).now = s.now := by unfold State.modUnit; split <;> rfl
@[simp] theorem State.modUnit_freeCtr (u : Nat) (f : UnitSt → UnitSt) : (s.modUnit u f).freeCtr = s.freeCtr := by unfold State.modUnit; split <;> rfl
@[simp] theorem State.modUnit_regs (u : Nat) (f : UnitSt → UnitSt) : (s.modUnit u f).regs = s.regs := by unfold State.modUnit; split <;> rfl
@[simp] theorem State.modUnit_mem (u : Nat) (f : UnitSt → UnitSt) : (s.modUnit u f).mem = s.mem := by unfold State.modUnit; split <;> rfl
@[simp] theorem State.modUnit_ecc (u : Nat) (f : UnitSt → UnitSt) : (s.modUnit u f).ecc = s.ecc := by unfold State.modUnit; split <;> rfl
@[simp] theorem State.modUnit_undef (u : Nat) (f : UnitSt → UnitSt) : (s.modUnit u f).undef = s.undef := by unfold State.modUnit; split <;> rfl
@[simp] theorem State.modUnit_cycBase (u : Nat) (f : UnitSt → UnitSt) : (s.modUnit u f).cycBase = s.cycBase := by unfold State.modUnit; split <;> rfl
@[simp] theorem State.modUnit_cycT0 (u : Nat) (f : UnitSt → UnitSt) : (s.modUnit u f).cycT0 = s.cycT0 := by unfold State.modUnit; split <;> rfl
@[simp] theorem State.modUnit_cc (u : Nat) (f : UnitSt → UnitSt) : (s.modUnit u f).cc = s.cc := by unfold State.modUnit; split <;> rfl
@[simp] theorem State.modUnit_eng (u : Nat) (f : UnitSt → UnitSt) : (s.modUnit u f).eng = s.eng := by unfold State.modUnit; split <;> rfl
@[simp] theorem State.modUnit_phys (u : Nat) (f : UnitSt → UnitSt) : (s.modUnit u f).phys = s.phys := by unfold State.modUnit; split <;> rfl
@[simp] theorem State.modUnit_nextTid (u : Nat) (f : UnitSt → UnitSt) : (s.modUnit u f).nextTid = s.nextTid := by unfold State.modUnit; split <;> rfl
@[simp] theorem State.modUnit_heads (u : Nat) (f : UnitSt → UnitSt) : (s.modUnit u f).heads = s.heads := by unfold State.modUnit; split <;> rfl
@[simp] theorem State.modUnit_boot (u : Nat) (f : UnitSt → UnitSt) : (s.modUnit u f).boot = s.boot := by unfold State.modUnit; split <;> rfl
@[simp] theorem State.modUnit_prof (u : Nat) (f : UnitSt → UnitSt) : (s.modUnit u f).prof = s.prof := by unfold State.modUnit; split <;> rfl
@[simp] theorem State.modUnit_mode (u : Nat) (f : UnitSt → UnitSt) : (s.modUnit u f).mode = s.mode := by unfold State.modUnit; split <;> rfl
@[simp] theorem State.modUnit_store (u : Nat) (f : UnitSt → UnitSt) : (s.modUnit u f).store = s.store := by unfold State.modUnit; split <;> rfl
@[simp] theorem State.modUnit_blit (u : Nat) (f : UnitSt → UnitSt) : (s.modUnit u f).blit = s.blit := by unfold State.modUnit; split <;> rfl
@[simp] theorem State.modUnit_dma (u : Nat) (f : UnitSt → UnitSt) : (s.modUnit u f).dma = s.dma := by unfold State.modUnit; split <;> rfl
@[simp] theorem State.modUnit_cam (u : Nat) (f : UnitSt → UnitSt) : (s.modUnit u f).cam = s.cam := by unfold State.modUnit; split <;> rfl
@[simp] theorem State.modUnit_aud (u : Nat) (f : UnitSt → UnitSt) : (s.modUnit u f).aud = s.aud := by unfold State.modUnit; split <;> rfl
@[simp] theorem State.modUnit_icuStack (u : Nat) (f : UnitSt → UnitSt) : (s.modUnit u f).icuStack = s.icuStack := by unfold State.modUnit; split <;> rfl
@[simp] theorem State.modUnit_icuFilt (u : Nat) (f : UnitSt → UnitSt) : (s.modUnit u f).icuFilt = s.icuFilt := by unfold State.modUnit; split <;> rfl
@[simp] theorem State.modUnit_dmaLast (u : Nat) (f : UnitSt → UnitSt) : (s.modUnit u f).dmaLast = s.dmaLast := by unfold State.modUnit; split <;> rfl
@[simp] theorem State.modUnit_waiting (u : Nat) (f : UnitSt → UnitSt) : (s.modUnit u f).waiting = s.waiting := by unfold State.modUnit; split <;> rfl
@[simp] theorem State.modUnit_blocked (u : Nat) (f : UnitSt → UnitSt) : (s.modUnit u f).blocked = s.blocked := by unfold State.modUnit; split <;> rfl
@[simp] theorem State.modUnit_capf (u : Nat) (f : UnitSt → UnitSt) : (s.modUnit u f).capf = s.capf := by unfold State.modUnit; split <;> rfl
@[simp] theorem State.modUnit_wdtSvc (u : Nat) (f : UnitSt → UnitSt) : (s.modUnit u f).wdtSvc = s.wdtSvc := by unfold State.modUnit; split <;> rfl
@[simp] theorem State.modUnit_adcSlot (u : Nat) (f : UnitSt → UnitSt) : (s.modUnit u f).adcSlot = s.adcSlot := by unfold State.modUnit; split <;> rfl
@[simp] theorem State.modUnit_prg (u : Nat) (f : UnitSt → UnitSt) : (s.modUnit u f).prg = s.prg := by unfold State.modUnit; split <;> rfl
@[simp] theorem State.modUnit_pcie (u : Nat) (f : UnitSt → UnitSt) : (s.modUnit u f).pcie = s.pcie := by unfold State.modUnit; split <;> rfl
@[simp] theorem State.modUnit_ptp (u : Nat) (f : UnitSt → UnitSt) : (s.modUnit u f).ptp = s.ptp := by unfold State.modUnit; split <;> rfl
@[simp] theorem State.modUnit_eth (u : Nat) (f : UnitSt → UnitSt) : (s.modUnit u f).eth = s.eth := by unfold State.modUnit; split <;> rfl
@[simp] theorem State.modUnit_uart (u : Nat) (f : UnitSt → UnitSt) : (s.modUnit u f).uart = s.uart := by unfold State.modUnit; split <;> rfl
@[simp] theorem State.modUnit_spi (u : Nat) (f : UnitSt → UnitSt) : (s.modUnit u f).spi = s.spi := by unfold State.modUnit; split <;> rfl
@[simp] theorem State.modUnit_i2c (u : Nat) (f : UnitSt → UnitSt) : (s.modUnit u f).i2c = s.i2c := by unfold State.modUnit; split <;> rfl
@[simp] theorem State.modUnit_qspi (u : Nat) (f : UnitSt → UnitSt) : (s.modUnit u f).qspi = s.qspi := by unfold State.modUnit; split <;> rfl
@[simp] theorem State.modUnit_flash (u : Nat) (f : UnitSt → UnitSt) : (s.modUnit u f).flash = s.flash := by unfold State.modUnit; split <;> rfl
@[simp] theorem State.modUnit_pins (u : Nat) (f : UnitSt → UnitSt) : (s.modUnit u f).pins = s.pins := by unfold State.modUnit; split <;> rfl
@[simp] theorem State.modUnit_tap (u : Nat) (f : UnitSt → UnitSt) : (s.modUnit u f).tap = s.tap := by unfold State.modUnit; split <;> rfl
@[simp] theorem State.modUnit_dbg (u : Nat) (f : UnitSt → UnitSt) : (s.modUnit u f).dbg = s.dbg := by unfold State.modUnit; split <;> rfl
@[simp] theorem State.modUnit_fuses (u : Nat) (f : UnitSt → UnitSt) : (s.modUnit u f).fuses = s.fuses := by unfold State.modUnit; split <;> rfl
@[simp] theorem State.modUnit_resp (u : Nat) (f : UnitSt → UnitSt) : (s.modUnit u f).resp = s.resp := by unfold State.modUnit; split <;> rfl

end Sys2Proof.Machine
end

