-- ==== Sys2Proof/Laws/Regs.lean ====
section
/-! SUPPORT. Reading back what was written: registers, fields, and the numbered records. -/

namespace Sys2Proof.Machine

variable (s : State)

/-! ### Registers -/

theorem State.rd_wr (a b : Nat) (v : Word) : (s.wr a v).rd b = if b = a then v else s.rd b := by
  simp [State.rd, State.wr, tabGet_set]

@[simp] theorem State.rd_wr_same (a : Nat) (v : Word) : (s.wr a v).rd a = v := by simp [State.rd_wr]

theorem State.rd_wr_ne {a b : Nat} (v : Word) (h : b ≠ a) : (s.wr a v).rd b = s.rd b := by simp [State.rd_wr, h]

theorem State.rd_put (f : Fld) (v b : Nat) :
    (s.put f v).rd b = if b = f.addr then setBits (s.rd f.addr) f.lo f.width v else s.rd b := by
  simp [State.put, State.rd_wr]

theorem State.rd_put_ne {f : Fld} (v : Nat) {b : Nat} (h : b ≠ f.addr) : (s.put f v).rd b = s.rd b := by
  simp [State.rd_put, h]

theorem State.get_put_same (f : Fld) (v : Nat) (h : f.lo + f.width ≤ 32) :
    (s.put f v).get f = v % 2 ^ f.width := by
  simp [State.get, State.rd_put, bitsOf_setBits_same, h]

theorem State.get_put_ne {f g : Fld} (v : Nat)
    (h : g.addr ≠ f.addr ∨ g.lo + g.width ≤ f.lo ∨ f.lo + f.width ≤ g.lo) : (s.put f v).get g = s.get g := by
  by_cases ha : g.addr = f.addr
  · simp only [State.get, State.rd_put, ha, if_true]
    exact bitsOf_setBits_disj _ _ (h.resolve_left (fun hn => hn ha))
  · simp [State.get, State.rd_put_ne _ _ ha]

theorem State.get_wr_ne {a : Nat} {f : Fld} (v : Word) (h : f.addr ≠ a) : (s.wr a v).get f = s.get f := by
  simp [State.get, State.rd_wr_ne _ _ h]

@[simp] theorem State.on_eq (f : Fld) : s.on f = s.put f 1 := rfl
@[simp] theorem State.off_eq (f : Fld) : s.off f = s.put f 0 := rfl
@[simp] theorem State.iff_true (f : State → State) : s.iff true f = f s := rfl
@[simp] theorem State.iff_false (f : State → State) : s.iff false f = s := rfl

/-- The register file alone decides what registers read. -/
theorem State.rd_congr {s t : State} (h : t.regs = s.regs) (a : Nat) : t.rd a = s.rd a := by simp [State.rd, h]
theorem State.get_congr {s t : State} (h : t.regs = s.regs) (f : Fld) : t.get f = s.get f := by
  simp [State.get, State.rd_congr h]
theorem State.flag_congr {s t : State} (h : t.regs = s.regs) (f : Fld) : t.flag f = s.flag f := by
  simp [State.flag, State.get_congr h]

/-! ### The numbered records -/

theorem State.head_setHead (h k : Nat) (x : HeadSt) : (s.setHead h x).head k = if k = h then x else s.head k := by
  simp [State.head, State.setHead, tabGet_set]
@[simp] theorem State.head_setHead_same (h : Nat) (x : HeadSt) : (s.setHead h x).head h = x := by simp [State.head_setHead]
@[simp] theorem State.head_modHead_same (h : Nat) (f : HeadSt → HeadSt) : (s.modHead h f).head h = f (s.head h) := by
  simp [State.modHead]
theorem State.head_modHead_ne {h k : Nat} (f : HeadSt → HeadSt) (n : k ≠ h) : (s.modHead h f).head k = s.head k := by
  simp [State.modHead, State.head_setHead, n]
theorem HeadSt.layer_setLayer (x : HeadSt) (l k : Nat) (y : LayerSt) :
    (x.setLayer l y).layer k = if k = l then y else x.layer k := by
  simp [HeadSt.layer, HeadSt.setLayer, tabGet_set]
theorem HeadSt.win_setWin (x : HeadSt) (l k : Nat) (y : WinSt) :
    (x.setWin l y).win k = if k = l then y else x.win k := by
  simp [HeadSt.win, HeadSt.setWin, tabGet_set]
@[simp] theorem State.layer_modLayer_same (h l : Nat) (f : LayerSt → LayerSt) :
    (s.modLayer h l f).layer h l = f (s.layer h l) := by
  simp [State.layer, State.modLayer, State.modHead, HeadSt.layer_setLayer]

theorem State.engine_setEngine (e k : Nat) (x : CoreSt) :
    (s.setEngine e x).engine k = if k = e then x else s.engine k := by
  simp [State.engine, State.setEngine, tabGet_set]
@[simp] theorem State.engine_setEngine_same (e : Nat) (x : CoreSt) : (s.setEngine e x).engine e = x := by
  simp [State.engine_setEngine]
@[simp] theorem State.engine_modEngine_same (e : Nat) (f : CoreSt → CoreSt) : (s.modEngine e f).engine e = f (s.engine e) := by
  simp [State.modEngine]
@[simp] theorem State.core_setCore_same (c : Ctx) (x : CoreSt) : (s.setCore c x).core c = x := by
  cases c <;> simp [State.core, State.setCore]
theorem State.core_setCore_ne {c d : Ctx} (x : CoreSt) (h : d ≠ c) : (s.setCore c x).core d = s.core d := by
  cases c <;> cases d <;> simp_all [State.core, State.setCore, State.engine, State.setEngine]
  rename_i e e'
  rw [tabGet_set_ne]
  intro hv; exact h (Fin.ext hv)
@[simp] theorem State.core_modCore_same (c : Ctx) (f : CoreSt → CoreSt) : (s.modCore c f).core c = f (s.core c) := by
  simp [State.modCore]
theorem State.core_modCore_ne {c d : Ctx} (f : CoreSt → CoreSt) (h : d ≠ c) : (s.modCore c f).core d = s.core d := by
  simp [State.modCore, State.core_setCore_ne _ _ h]
@[simp] theorem State.core_wr (c : Ctx) (a : Nat) (v : Word) : (s.wr a v).core c = s.core c := by cases c <;> rfl
@[simp] theorem State.core_put (c : Ctx) (f : Fld) (v : Nat) : (s.put f v).core c = s.core c := by cases c <;> rfl

theorem State.unit_setUnit (u k : Nat) (x : Option UnitSt) :
    (s.setUnit u x).unit? k = if k = u then x else s.unit? k := by
  simp [State.unit?, State.setUnit, tabGet_set]

theorem State.dmaSt_setDma (n k : Nat) (x : DmaSt) : (s.setDma n x).dmaSt k = if k = n then x else s.dmaSt k := by
  simp [State.dmaSt, State.setDma, tabGet_set]
theorem State.camSt_setCam (n k : Nat) (x : CamSt) : (s.setCam n x).camSt k = if k = n then x else s.camSt k := by
  simp [State.camSt, State.setCam, tabGet_set]
theorem State.ethSt_setEth (n k : Nat) (x : EthSt) : (s.setEth n x).ethSt k = if k = n then x else s.ethSt k := by
  simp [State.ethSt, State.setEth, tabGet_set]
theorem State.uartSt_setUart (n k : Nat) (x : FifoSt) : (s.setUart n x).uartSt k = if k = n then x else s.uartSt k := by
  simp [State.uartSt, State.setUart, tabGet_set]
theorem State.spiSt_setSpi (n k : Nat) (x : FifoSt) : (s.setSpi n x).spiSt k = if k = n then x else s.spiSt k := by
  simp [State.spiSt, State.setSpi, tabGet_set]
theorem State.i2cSt_setI2c (n k : Nat) (x : FifoSt) : (s.setI2c n x).i2cSt k = if k = n then x else s.i2cSt k := by
  simp [State.i2cSt, State.setI2c, tabGet_set]
theorem State.audSrc_setAudSrc (n k : Nat) (x : SrcSt) :
    (s.setAudSrc n x).audSrc k = if k = n then x else s.audSrc k := by
  simp [State.audSrc, State.setAudSrc, tabGet_set]
theorem State.audBus_setAudBus (n k : Nat) (x : BusSt) :
    (s.setAudBus n x).audBus k = if k = n then x else s.audBus k := by
  simp [State.audBus, State.setAudBus, tabGet_set]

end Sys2Proof.Machine
end

