-- ==== Sys2Proof/Laws/Issue.lean ====
section
/-! SUPPORT. What issuing an instruction does, said once; and the laws of the general registers. -/

namespace Sys2Proof.Machine

theorem CoreSt.gr_setGr (x : CoreSt) (rd r : RegNo) (v : Word) :
    (x.setGr rd v).gr r = if r = rd ∧ r ≠ 0 then v else x.gr r := by
  unfold CoreSt.setGr CoreSt.gr
  by_cases h0 : rd = 0
  · subst h0; by_cases hr : r = 0 <;> simp [hr]
  · by_cases hr : r = 0
    · simp [hr]
    · simp only [h0, hr, if_false, tabGet_set, ne_eq, not_false_eq_true, and_true]
      by_cases he : r = rd
      · subst he; simp
      · have : r.toNat ≠ rd.toNat := fun h => he (BitVec.eq_of_toNat_eq h)
        simp [he, this]

/-- g0 reads zero (R79). -/
@[simp] theorem CoreSt.gr_zero (x : CoreSt) : x.gr 0 = 0 := rfl

/-- Writing a general register changes nothing else of the record. -/
theorem CoreSt.setGr_eq (x : CoreSt) (rd : RegNo) (v : Word) : x.setGr rd v = { x with g := (x.setGr rd v).g } := by
  unfold CoreSt.setGr; split <;> rfl

@[simp] theorem CoreSt.setGr_status (x : CoreSt) (rd : RegNo) (v : Word) : (x.setGr rd v).status = x.status := by
  unfold CoreSt.setGr; split <;> rfl
@[simp] theorem CoreSt.setGr_pc (x : CoreSt) (rd : RegNo) (v : Word) : (x.setGr rd v).pc = x.pc := by
  unfold CoreSt.setGr; split <;> rfl
@[simp] theorem CoreSt.setGr_sp (x : CoreSt) (rd : RegNo) (v : Word) : (x.setGr rd v).sp = x.sp := by
  unfold CoreSt.setGr; split <;> rfl

/-- The loop-end check changes the PC and the counts only. -/
theorem CoreSt.loopEnd_eq (x : CoreSt) (a : Word) :
    x.loopEnd a = { x with pc := (x.loopEnd a).pc, lc0 := (x.loopEnd a).lc0, lc1 := (x.loopEnd a).lc1 } := by
  unfold CoreSt.loopEnd; split_ifs <;> rfl

/-- Retiring changes the PC, the counts and the time of the next issue only. -/
theorem CoreSt.retireAs_eq (x : CoreSt) (b : Bool) (r : Nat) :
    x.retireAs b r = { x with pc := (x.retireAs b r).pc, lc0 := (x.retireAs b r).lc0, lc1 := (x.retireAs b r).lc1,
                              ready := (x.retireAs b r).ready } := by
  unfold CoreSt.retireAs
  dsimp only
  split
  · rw [CoreSt.loopEnd_eq]
  · rfl
@[simp] theorem CoreSt.retire_g (x : CoreSt) (r : Nat) : (x.retire r).g = x.g := by
  unfold CoreSt.retire; rw [CoreSt.retireAs_eq]
@[simp] theorem CoreSt.retire_gr (x : CoreSt) (r : Nat) (n : RegNo) : (x.retire r).gr n = x.gr n := by
  simp [CoreSt.gr]
@[simp] theorem CoreSt.retire_status (x : CoreSt) (r : Nat) : (x.retire r).status = x.status := by
  unfold CoreSt.retire; rw [CoreSt.retireAs_eq]

/-- Landing products changes MLO, MHI and the products only. -/
theorem landDue_eq (t : Nat) (ps : List (Nat × BitVec 64)) : ∀ x : CoreSt,
    landDue t x ps = { x with mlo := (landDue t x ps).mlo, mhi := (landDue t x ps).mhi, products := (landDue t x ps).products } := by
  induction ps with
  | nil => intro x; rfl
  | cons p ps ih =>
    intro x
    unfold landDue
    split
    · rw [ih]
    · rfl

/-- The register file decides whether a debugger is attached. -/
theorem State.compare_detached (s : State) (k : Nat) (c : Ctx) (a : Nat) (bs : List Byte)
    (h : s.flag F.DBG_CTRL_ATTACH = false) : s.compare k c a bs = (none, s) := by
  simp [State.compare, h]

/-- An instruction that issues does its work on the context as it stands at its issue. -/
theorem State.issue_of_issues {s : State} {c : Ctx} {i : Instr} (h : s.Issues c i) (f : Nat → State → State) :
    s.issue c i f = f (s.issueTime c) (s.setCore c (s.atIssue c)) := by
  obtain ⟨hr, hf, hl, ha⟩ := h
  have ha' : (s.setCore c (s.atIssue c)).flag F.DBG_CTRL_ATTACH = false := by
    rw [State.flag_congr (State.setCore_regs _ _ _)]; exact ha
  unfold State.issue State.issueWord
  simp only [hr, hf, hl, Bool.not_true, Bool.false_eq_true, if_false, if_true]
  rw [show s.setCore c (landDue (max s.now (s.core c).ready) { s.core c with ready := max s.now (s.core c).ready, skipCmp := none }
    (s.core c).products) = s.setCore c (s.atIssue c) from rfl]
  rw [State.compare_detached _ _ _ _ _ ha']
  rfl

/-- A context that does not execute issues nothing. -/
theorem State.issue_of_not_runnable {s : State} {c : Ctx} (h : s.runnable c = false) (i : Instr) (f : Nat → State → State) :
    s.issue c i f = s := by
  simp [State.issue, State.issueWord, h]

/-- Replacing a context's record touches nothing else. -/
theorem onlyCtx_setCore (s : State) (c : Ctx) (y : CoreSt) : OnlyCtx c s (s.setCore c y) := by
  refine ⟨?_, fun d hd => State.core_setCore_ne s y hd, fun k => ?_, fun a _ => ?_⟩
  · cases c <;> rfl
  · simp [State.rawByte]
  · simp [State.rd]

theorem onlyCtx_setCore_twice (s : State) (c : Ctx) (x y : CoreSt) : OnlyCtx c s ((s.setCore c x).setCore c y) := by
  refine ⟨?_, fun d hd => ?_, fun k => ?_, fun a _ => ?_⟩
  · cases c <;> rfl
  · rw [State.core_setCore_ne _ y hd, State.core_setCore_ne _ x hd]
  · simp [State.rawByte]
  · simp [State.rd]

/-! ### The context at the issue -/

theorem State.atIssue_eq (s : State) (c : Ctx) :
    s.atIssue c = { s.core c with ready := s.issueTime c, skipCmp := none, mlo := (s.atIssue c).mlo,
                                  mhi := (s.atIssue c).mhi, products := (s.atIssue c).products } := by
  unfold State.atIssue; rw [landDue_eq]

@[simp] theorem State.atIssue_g (s : State) (c : Ctx) : (s.atIssue c).g = (s.core c).g := by rw [State.atIssue_eq]
@[simp] theorem State.atIssue_pc (s : State) (c : Ctx) : (s.atIssue c).pc = (s.core c).pc := by rw [State.atIssue_eq]
@[simp] theorem State.atIssue_status (s : State) (c : Ctx) : (s.atIssue c).status = (s.core c).status := by rw [State.atIssue_eq]
@[simp] theorem State.atIssue_bnk (s : State) (c : Ctx) : (s.atIssue c).bnk = (s.core c).bnk := by rw [State.atIssue_eq]
@[simp] theorem State.atIssue_sp (s : State) (c : Ctx) : (s.atIssue c).sp = (s.core c).sp := by rw [State.atIssue_eq]
@[simp] theorem State.atIssue_rsp (s : State) (c : Ctx) : (s.atIssue c).rsp = (s.core c).rsp := by rw [State.atIssue_eq]
@[simp] theorem State.atIssue_lc0 (s : State) (c : Ctx) : (s.atIssue c).lc0 = (s.core c).lc0 := by rw [State.atIssue_eq]
@[simp] theorem State.atIssue_ls0 (s : State) (c : Ctx) : (s.atIssue c).ls0 = (s.core c).ls0 := by rw [State.atIssue_eq]
@[simp] theorem State.atIssue_le0 (s : State) (c : Ctx) : (s.atIssue c).le0 = (s.core c).le0 := by rw [State.atIssue_eq]
@[simp] theorem State.atIssue_lc1 (s : State) (c : Ctx) : (s.atIssue c).lc1 = (s.core c).lc1 := by rw [State.atIssue_eq]
@[simp] theorem State.atIssue_ls1 (s : State) (c : Ctx) : (s.atIssue c).ls1 = (s.core c).ls1 := by rw [State.atIssue_eq]
@[simp] theorem State.atIssue_le1 (s : State) (c : Ctx) : (s.atIssue c).le1 = (s.core c).le1 := by rw [State.atIssue_eq]
@[simp] theorem State.atIssue_epc (s : State) (c : Ctx) : (s.atIssue c).epc = (s.core c).epc := by rw [State.atIssue_eq]
@[simp] theorem State.atIssue_estat (s : State) (c : Ctx) : (s.atIssue c).estat = (s.core c).estat := by rw [State.atIssue_eq]
@[simp] theorem State.atIssue_ecause (s : State) (c : Ctx) : (s.atIssue c).ecause = (s.core c).ecause := by rw [State.atIssue_eq]
@[simp] theorem State.atIssue_eaddr (s : State) (c : Ctx) : (s.atIssue c).eaddr = (s.core c).eaddr := by rw [State.atIssue_eq]
@[simp] theorem State.atIssue_vbase (s : State) (c : Ctx) : (s.atIssue c).vbase = (s.core c).vbase := by rw [State.atIssue_eq]
@[simp] theorem State.atIssue_spc (s : State) (c : Ctx) : (s.atIssue c).spc = (s.core c).spc := by rw [State.atIssue_eq]
@[simp] theorem State.atIssue_sstat (s : State) (c : Ctx) : (s.atIssue c).sstat = (s.core c).sstat := by rw [State.atIssue_eq]
@[simp] theorem State.atIssue_ssp (s : State) (c : Ctx) : (s.atIssue c).ssp = (s.core c).ssp := by rw [State.atIssue_eq]
@[simp] theorem State.atIssue_sysent (s : State) (c : Ctx) : (s.atIssue c).sysent = (s.core c).sysent := by rw [State.atIssue_eq]
@[simp] theorem State.atIssue_dfpc (s : State) (c : Ctx) : (s.atIssue c).dfpc = (s.core c).dfpc := by rw [State.atIssue_eq]
@[simp] theorem State.atIssue_ctxid (s : State) (c : Ctx) : (s.atIssue c).ctxid = (s.core c).ctxid := by rw [State.atIssue_eq]
@[simp] theorem State.atIssue_resv (s : State) (c : Ctx) : (s.atIssue c).resv = (s.core c).resv := by rw [State.atIssue_eq]
@[simp] theorem State.atIssue_barp (s : State) (c : Ctx) : (s.atIssue c).barp = (s.core c).barp := by rw [State.atIssue_eq]
@[simp] theorem State.atIssue_split (s : State) (c : Ctx) : (s.atIssue c).split = (s.core c).split := by rw [State.atIssue_eq]
@[simp] theorem State.atIssue_faultPark (s : State) (c : Ctx) : (s.atIssue c).faultPark = (s.core c).faultPark := by rw [State.atIssue_eq]
@[simp] theorem State.atIssue_asleep (s : State) (c : Ctx) : (s.atIssue c).asleep = (s.core c).asleep := by rw [State.atIssue_eq]
@[simp] theorem State.atIssue_started (s : State) (c : Ctx) : (s.atIssue c).started = (s.core c).started := by rw [State.atIssue_eq]
@[simp] theorem State.atIssue_parked (s : State) (c : Ctx) : (s.atIssue c).parked = (s.core c).parked := by rw [State.atIssue_eq]
@[simp] theorem State.atIssue_halted (s : State) (c : Ctx) : (s.atIssue c).halted = (s.core c).halted := by rw [State.atIssue_eq]
@[simp] theorem State.atIssue_stalled (s : State) (c : Ctx) : (s.atIssue c).stalled = (s.core c).stalled := by rw [State.atIssue_eq]
@[simp] theorem State.atIssue_actHalf (s : State) (c : Ctx) : (s.atIssue c).actHalf = (s.core c).actHalf := by rw [State.atIssue_eq]
@[simp] theorem State.atIssue_lockup (s : State) (c : Ctx) : (s.atIssue c).lockup = (s.core c).lockup := by rw [State.atIssue_eq]
@[simp] theorem State.atIssue_cmdParked (s : State) (c : Ctx) : (s.atIssue c).cmdParked = (s.core c).cmdParked := by rw [State.atIssue_eq]
@[simp] theorem State.atIssue_faulted (s : State) (c : Ctx) : (s.atIssue c).faulted = (s.core c).faulted := by rw [State.atIssue_eq]
@[simp] theorem State.atIssue_reloading (s : State) (c : Ctx) : (s.atIssue c).reloading = (s.core c).reloading := by rw [State.atIssue_eq]
@[simp] theorem State.atIssue_haltReq (s : State) (c : Ctx) : (s.atIssue c).haltReq = (s.core c).haltReq := by rw [State.atIssue_eq]
@[simp] theorem State.atIssue_reason (s : State) (c : Ctx) : (s.atIssue c).reason = (s.core c).reason := by rw [State.atIssue_eq]
@[simp] theorem State.atIssue_parkReq (s : State) (c : Ctx) : (s.atIssue c).parkReq = (s.core c).parkReq := by rw [State.atIssue_eq]
@[simp] theorem State.atIssue_inRom (s : State) (c : Ctx) : (s.atIssue c).inRom = (s.core c).inRom := by rw [State.atIssue_eq]
@[simp] theorem State.atIssue_ready (s : State) (c : Ctx) : (s.atIssue c).ready = s.issueTime c := by rw [State.atIssue_eq]
@[simp] theorem State.atIssue_gr (s : State) (c : Ctx) (r : RegNo) : (s.atIssue c).gr r = (s.core c).gr r := by
  simp [CoreSt.gr]

/-! ### The PC after an instruction -/

/-- Retiring an instruction that kept PC, LPE and the loop registers goes on by the loop-end rule. -/
theorem CoreSt.goesOn_retire (x y : CoreSt) (r : Nat) (hpc : y.pc = x.pc) (hst : bitOf y.status stLPE = bitOf x.status stLPE)
    (h0 : y.lc0 = x.lc0) (h1 : y.ls0 = x.ls0) (h2 : y.le0 = x.le0) (h3 : y.lc1 = x.lc1) (h4 : y.ls1 = x.ls1)
    (h5 : y.le1 = x.le1) : x.GoesOn (y.retire r) := by
  unfold CoreSt.GoesOn CoreSt.retire CoreSt.retireAs
  rw [hst]
  cases bitOf x.status stLPE
  · simp [hpc, h0, h3]
  · simp only [CoreSt.loopEnd, hpc, h0, h1, h2, h3, h4, h5, if_true]
    split_ifs <;> simp

end Sys2Proof.Machine
end

