-- ==== Sys2Proof/Laws/Alu.lean ====
section
/-! SUPPORT. What the shared operations of the integer, multiplier, divider and pixel instructions do when the instruction
issues. -/

namespace Sys2Proof.Machine

/-- An ALU instruction that issues and does not trap: its record is replaced, and nothing else. -/
theorem State.alu_of_issues {s : State} {c : Ctx} {i : Instr} (h : s.Issues c i) (rd : RegNo) (fl : Bool)
    (f : CoreSt → AluRes) (hv : (fl && (f (s.atIssue c)).v && bitOf (s.core c).status stOVT) = false) :
    s.alu c i rd fl f = (s.setCore c (s.atIssue c)).setCore c
      ((((if fl then (s.atIssue c).setFlags (f (s.atIssue c)) else s.atIssue c).setGr rd (f (s.atIssue c)).val).retire
        (s.issueTime c + (s.setCore c (s.atIssue c)).perOf c))) := by
  unfold State.alu
  rw [State.issue_of_issues h]
  simp only [State.core_setCore_same, State.atIssue_status, hv, Bool.false_eq_true, if_false]

/-- An ALU instruction that would set V with OVT = 1 raises exception 9 in its place (R93). -/
theorem State.alu_traps {s : State} {c : Ctx} {i : Instr} (h : s.Issues c i) (rd : RegNo) (fl : Bool)
    (f : CoreSt → AluRes) (hv : (fl && (f (s.atIssue c)).v && bitOf (s.core c).status stOVT) = true) :
    s.alu c i rd fl f = (s.setCore c (s.atIssue c)).raise c (s.issueTime c) 1 { num := 9 } := by
  unfold State.alu
  rw [State.issue_of_issues h]
  simp only [State.core_setCore_same, State.atIssue_status, hv, if_true]

/-- A multiplier instruction that issues puts its product in flight (R94). -/
theorem State.product_of_issues {s : State} {c : Ctx} {i : Instr} (h : s.Issues c i) (f : CoreSt → BitVec 64) :
    s.product c i f = (s.setCore c (s.atIssue c)).modCore c fun x =>
      { x with products := x.products ++ [(s.issueTime c + 3 * (s.setCore c (s.atIssue c)).perOf c, f x)] }.retire
        (s.issueTime c + (s.setCore c (s.atIssue c)).perOf c) := by
  unfold State.product
  rw [State.issue_of_issues h]

/-- A pixel instruction that issues writes rd (R107, R108). -/
theorem State.pix_of_issues {s : State} {c : Ctx} {i : Instr} (h : s.Issues c i) (rd rs rt : RegNo) (cyc : Nat)
    (f : Word → Word → Word) :
    s.pix c i rd rs rt cyc f = (s.setCore c (s.atIssue c)).modCore c fun x =>
      (x.setGr rd (f (x.gr rs) (x.gr rt))).retire (s.issueTime c + cyc * (s.setCore c (s.atIssue c)).perOf c) := by
  unfold State.pix
  rw [State.issue_of_issues h]

/-- The flags that an ALU result leaves (R90). -/
theorem setNZCV_bits (st : Word) (n z c v : Bool) (i : Nat) :
    bitOf (setNZCV st n z c v) i =
      if i = 31 then n else if i = 30 then z else if i = 29 then c else if i = 28 then v
      else decide (i < 28) && bitOf st i := by
  unfold setNZCV bitOf
  simp only [BitVec.getLsbD_or, BitVec.getLsbD_and]
  by_cases h31 : i = 31
  · subst h31; cases n <;> cases z <;> cases c <;> cases v <;> simp
  by_cases h30 : i = 30
  · subst h30; cases n <;> cases z <;> cases c <;> cases v <;> simp
  by_cases h29 : i = 29
  · subst h29; cases n <;> cases z <;> cases c <;> cases v <;> simp
  by_cases h28 : i = 28
  · subst h28; cases n <;> cases z <;> cases c <;> cases v <;> simp
  simp only [h31, h30, h29, h28, if_false]
  by_cases h : i < 28
  · have e0 : (0x0FFFFFFF : Word).getLsbD i = true := by interval_cases i <;> rfl
    have e1 : (if n then (0x80000000 : Word) else 0).getLsbD i = false := by interval_cases i <;> cases n <;> rfl
    have e2 : (if z then (0x40000000 : Word) else 0).getLsbD i = false := by interval_cases i <;> cases z <;> rfl
    have e3 : (if c then (0x20000000 : Word) else 0).getLsbD i = false := by interval_cases i <;> cases c <;> rfl
    have e4 : (if v then (0x10000000 : Word) else 0).getLsbD i = false := by interval_cases i <;> cases v <;> rfl
    rw [e0, e1, e2, e3, e4]; simp [h]
  · have hi : 32 ≤ i := by omega
    simp [BitVec.getLsbD_of_ge _ i hi, h]

end Sys2Proof.Machine
end

