-- ==== Sys2Proof/Laws/Memory.lean ====
section
/-! SUPPORT. Laws of the byte memory: read after write, a write leaves every other byte, and every memory operation keeps
the canonical form. -/

namespace Sys2Proof.Machine

theorem State.rawByte_putByte (s : State) (k j : Nat) (b : Byte) :
    (s.putByte k b).rawByte j = if j = k then b else s.rawByte j := by
  simp [State.rawByte, State.putByte, tabGet_set]

theorem State.rawByte_congr {s t : State} (h : t.mem = s.mem) (k : Nat) : t.rawByte k = s.rawByte k := by
  simp [State.rawByte, h]

/-- Storing bytes from `k` on: byte `j` reads the byte stored there, and every other byte as before. -/
theorem State.rawByte_putRaw (bs : List Byte) : ∀ (s : State) (k j : Nat),
    (s.putRaw k bs).rawByte j = if k ≤ j ∧ j < k + bs.length then bs.getD (j - k) 0 else s.rawByte j := by
  induction bs with
  | nil => intro s k j; simp [State.putRaw]
  | cons b bs ih =>
    intro s k j
    simp only [State.putRaw, ih, State.rawByte_putByte, List.length_cons]
    by_cases h1 : j = k
    · subst h1; simp
    · by_cases h2 : k + 1 ≤ j ∧ j < k + 1 + bs.length
      · have h3 : k ≤ j ∧ j < k + (bs.length + 1) := by omega
        have h4 : j - k = (j - (k + 1)) + 1 := by omega
        simp [h2, h3, h4]
      · have h3 : ¬ (k ≤ j ∧ j < k + (bs.length + 1)) := by omega
        rw [if_neg h2, if_neg h3, if_neg h1]

theorem State.clearResv_mem (s : State) (p : Nat → Bool) : (s.clearResv p).mem = s.mem := by
  unfold State.clearResv
  have key : ∀ (l : Tab CoreSt) (t : State),
      (l.foldl (fun t x => if x.2.resv.any p then t.modEngine x.1 fun c => { c with resv := none } else t) t).mem = t.mem := by
    intro l
    induction l with
    | nil => intro t; rfl
    | cons e l ih => intro t; simp only [List.foldl_cons]; rw [ih]; split <;> rfl
  simp only [key]
  split <;> rfl

theorem State.clearResv_regs (s : State) (p : Nat → Bool) : (s.clearResv p).regs = s.regs := by
  unfold State.clearResv
  have key : ∀ (l : Tab CoreSt) (t : State),
      (l.foldl (fun t x => if x.2.resv.any p then t.modEngine x.1 fun c => { c with resv := none } else t) t).regs = t.regs := by
    intro l
    induction l with
    | nil => intro t; rfl
    | cons e l ih => intro t; simp only [List.foldl_cons]; rw [ih]; split <;> rfl
  simp only [key]
  split <;> rfl

theorem State.putRaw_regs (bs : List Byte) : ∀ (s : State) (k : Nat), (s.putRaw k bs).regs = s.regs := by
  induction bs with
  | nil => intro _ _; rfl
  | cons b bs ih => intro s k; simp [State.putRaw, ih]

theorem State.putBytes_regs (s : State) (k : Nat) (bs : List Byte) : (s.putBytes k bs).regs = s.regs := by
  simp [State.putBytes, State.clearResv_regs, State.putRaw_regs]

/-- What memory reads after bytes are stored, at every address. -/
theorem State.rawByte_putBytes (s : State) (k j : Nat) (bs : List Byte) :
    (s.putBytes k bs).rawByte j = if k ≤ j ∧ j < k + bs.length then bs.getD (j - k) 0 else s.rawByte j := by
  rw [← State.rawByte_putRaw]
  exact State.rawByte_congr (State.clearResv_mem _ _) j

theorem State.inject_mem (s : State) (k : Nat) : (s.inject k).mem = s.mem := by unfold State.inject; split <;> rfl

theorem State.rawByte_storeBytes (s : State) (k j : Nat) (bs : List Byte) :
    (s.storeBytes k bs).rawByte j = if k ≤ j ∧ j < k + bs.length then bs.getD (j - k) 0 else s.rawByte j := by
  rw [← State.rawByte_putBytes]
  exact State.rawByte_congr (State.inject_mem _ _) j

theorem State.rawByte_clearKeys (s : State) (p : Nat → Bool) (k : Nat) :
    (s.clearKeys p).rawByte k = if p k then memDefault k else s.rawByte k := by
  simp only [State.rawByte, State.clearKeys, tabGet_keep]
  by_cases h : p k <;> simp [h]

/-! ### The canonical form -/

theorem State.putByte_memWf (s : State) (k : Nat) (b : Byte) (h : tabWf memDefault s.mem) :
    tabWf memDefault (s.putByte k b).mem := tabWf_set _ _ _ h

theorem State.putRaw_memWf (bs : List Byte) : ∀ (s : State) (k : Nat), tabWf memDefault s.mem →
    tabWf memDefault (s.putRaw k bs).mem := by
  induction bs with
  | nil => intro _ _ h; exact h
  | cons b bs ih => intro s k h; exact ih _ _ (s.putByte_memWf k b h)

theorem State.putBytes_memWf (s : State) (k : Nat) (bs : List Byte) (h : tabWf memDefault s.mem) :
    tabWf memDefault (s.putBytes k bs).mem := by
  rw [State.putBytes, State.clearResv_mem]; exact State.putRaw_memWf bs s k h

theorem State.storeBytes_memWf (s : State) (k : Nat) (bs : List Byte) (h : tabWf memDefault s.mem) :
    tabWf memDefault (s.storeBytes k bs).mem := by
  rw [State.storeBytes, State.inject_mem]; exact s.putBytes_memWf k bs h

theorem State.putWord_memWf (s : State) (k : Nat) (w : Word) (h : tabWf memDefault s.mem) :
    tabWf memDefault (s.putWord k w).mem := s.putBytes_memWf k _ h

theorem State.clearKeys_memWf (s : State) (p : Nat → Bool) (h : tabWf memDefault s.mem) :
    tabWf memDefault (s.clearKeys p).mem := tabWf_keep _ _ h

end Sys2Proof.Machine
end

