-- ==== Sys2Proof/Laws/Waits.lean ====
section
/-! SUPPORT. What the operations that stand at the end of a command do, said once: the look of the event lines at their pins (R350),
and the hold that a hand-over puts on a block's accesses (R230). -/

namespace Sys2Proof.Machine

/-! ### Event lines -/

theorem UpToEvents.refl (s : State) : UpToEvents s s := ⟨rfl, fun _ _ => rfl, fun _ h => h⟩

theorem UpToEvents.trans {r s t : State} (a : UpToEvents r s) (b : UpToEvents s t) : UpToEvents r t := by
  obtain ⟨ha, ra, ba⟩ := a
  obtain ⟨hb, rb, bb⟩ := b
  refine ⟨?_, fun k hk => (rb k hk).trans (ra k hk), fun i hi => bb i (ba i hi)⟩
  rw [hb, ha]

/-- Setting a bit of a field clears none of its register. -/
theorem State.bit_onBit {s : State} {f : Fld} {i : Nat} (n : Nat) (h : bitOf (s.rd f.addr) i = true) :
    bitOf ((s.onBit f n).rd f.addr) i = true := by
  have hi : i < 32 := BitVec.lt_of_getLsbD h
  simp only [State.onBit, State.rd_put, if_true, bitOf, getLsbD_setBits, hi, decide_true, Bool.true_and,
    testBit_natSetBit_true, State.get, testBit_bitsOf]
  split
  · rename_i c
    simp only [bitOf] at h
    simp [show i - f.lo < f.width by omega, show f.lo + (i - f.lo) = i by omega, h]
  · exact h

/-- What one event line's look at its pin may do. -/
theorem State.seen_upToEvents (s : State) (n seen init : Nat) (hit : Bool) :
    UpToEvents s (State.iff { s with pins := { s.pins with evtSeen := seen, evtInit := init } } hit
      fun t => t.onBit F.PIN_EVT_STATUS_BITS n) := by
  cases hit
  · exact ⟨rfl, fun _ _ => rfl, fun _ h => h⟩
  · exact ⟨rfl, fun _ hk => State.rd_put_ne (f := F.PIN_EVT_STATUS_BITS) _ _ hk,
      fun i h => State.bit_onBit (f := F.PIN_EVT_STATUS_BITS) n h⟩

theorem State.lineSync_upToEvents (s : State) (n : Nat) : UpToEvents s (s.lineSync n) := by
  unfold State.lineSync
  split
  · exact ⟨rfl, fun _ _ => rfl, fun _ h => h⟩
  · exact s.seen_upToEvents n _ _ _

/-- The event lines' look at their pins moves nothing but what they have seen. -/
theorem State.pinSync_upToEvents (s : State) : UpToEvents s s.pinSync := by
  have go : ∀ (l : List Nat) (t : State), UpToEvents s t → UpToEvents s (l.foldl (fun t n => t.lineSync n) t) := by
    intro l
    induction l with
    | nil => exact fun t h => h
    | cons n l ih => exact fun t h => ih _ (h.trans (t.lineSync_upToEvents n))
  exact go _ s (.refl s)

/-- A command that ends in the event lines' look at their pins has its effect up to that. -/
theorem runsUpToEvents_of_pinSync {c : Instr} {s r : State} {P : State → Prop} (h : exec c s = .next r.pinSync) (p : P r) :
    RunsUpToEvents c s P :=
  ⟨r.pinSync, h, r, r.pinSync_upToEvents, p⟩

/-! ### Held accesses -/

/-- With nothing of the block waiting and no access held, a command's effect is all it does. -/
theorem State.orHeld_free (s t : State) (same : Held → Bool) (i : Held) (h : s.waiting.any same = false)
    (b : t.blocked = s.blocked) : s.orHeld same i t = t := by
  simp [State.orHeld, h, b]

/-- A command whose access a hand-over holds only joins those that wait. -/
theorem State.orHeld_held (s t : State) (same : Held → Bool) (i : Held) (h : s.blocked = false) (b : t.blocked = true) :
    s.orHeld same i t = { s with waiting := s.waiting ++ [i] } := by
  simp [State.orHeld, h, b]

/-- A command behind one of its own block that waits joins it. -/
theorem State.orHeld_behind (s t : State) (same : Held → Bool) (i : Held) (h : s.waiting.any same = true) :
    s.orHeld same i t = { s with waiting := s.waiting ++ [i] } := by
  simp [State.orHeld, h]

/-- A context that is held inside no instruction has nothing to try again. -/
theorem State.replay_free (s : State) (c : Ctx) (h : (s.core c).stalled = none) : s.replay c = s := by
  simp [State.replay, h]

theorem State.refetch_free (s : State) (h l : Nat) (f : s.fetchHeld h l = false) : s.refetch h l = s := by
  simp [State.refetch, f]

/-- A fold whose every step leaves the state leaves it. -/
theorem foldl_id {α β : Type} (f : α → β → α) (a : α) (l : List β) (h : ∀ b, b ∈ l → f a b = a) : l.foldl f a = a := by
  induction l with
  | nil => rfl
  | cons b l ih =>
    rw [List.foldl_cons, h b List.mem_cons_self]
    exact ih fun c hc => h c (List.mem_cons_of_mem _ hc)

/-- With nothing held, the end of a hand-over lets nothing proceed. -/
theorem State.heldProceed_free (s : State) (cc : s.cc.stalled = none) (eng : ∀ e, (s.engine e).stalled = none)
    (w : s.waiting = []) (f : ∀ h l, h < 4 → l < 8 → s.fetchHeld h l = false) : s.heldProceed = s := by
  have r : s.replayAll = s := by
    unfold State.replayAll
    rw [s.replay_free .cc cc]
    exact foldl_id _ _ _ fun e _ => s.replay_free _ (eng _)
  have g : (s.forEach 4 fun h s => s.forEach 8 fun l s => s.refetch h l) = s := by
    refine foldl_id _ _ _ fun h hh => foldl_id _ _ _ fun l hl => s.refetch_free h l (f h l ?_ ?_)
    · simpa using hh
    · simpa using hl
  unfold State.heldProceed
  simp only [r, g, w, List.foldl_nil]
  rw [← w]

end Sys2Proof.Machine
end

