-- ==== Sys2Proof/WellFormed.lean ====
section
/-! DEFINITION. Which commands are well formed: operands inside the ranges the spec gives them where the operand's type is
wider. A command that is not well formed is one no sender can make. -/

namespace Sys2Proof

/-- A word-aligned address or offset: registers are accessed as words (R2). -/
def alignedW (a : Nat) : Bool := a % 4 == 0

/-- A failing cell of a march lies in a memory whose bit STORE_BOOT_FAIL has: a Store bank, a control-core memory or the line store
(R244). -/
def cellWf (c : Nat × Fin 13) : Bool :=
  decide (0x100000 ≤ c.1 ∧ c.1 < 0x160000 ∨ 0x10000000 ≤ c.1 ∧ c.1 < 0x10800000 ∨ 0x30000000 ≤ c.1 ∧ c.1 < 0x30180000)

/-- The defects of a boot march name existing engines and ridges, and no engine twice (R20, R50); no failing cell twice. -/
def Defects.wf (d : Defects) : Bool :=
  d.engines.all (· < 1024) && d.ridges.all (· < 128) && d.engines.Nodup && d.cells.all cellWf && d.cells.Nodup

/-- The failing cells of a march are named by their byte addresses in Store, in one bank and in ascending order (R245). -/
def marchAddrsWf (l : List Nat) : Bool :=
  l.all (fun a => decide (0x10000000 ≤ a ∧ a < 0x10800000 ∧ a / 0x80000 = l.headD 0 / 0x80000)) && decide (l.Pairwise (· < ·))

/-- Well-formedness of a command. -/
def Instr.wf : Instr → Bool
  | .registerWrite _ a _ => alignedW a.toNat
  | .rcRead _ a _ => alignedW a.toNat
  | .corePllLock _ d => d.wf
  | .audRegisterWrite _ off _ => alignedW off.toNat
  | .pinSelWrite _ off _ => alignedW off.toNat
  | .marchDone fails => marchAddrsWf fails
  | .i2cDone _ _ rx => decide (rx.length ≤ 16)
  | .qspiDone rx prog => decide (rx.length ≤ 256) && decide (prog.length ≤ 256)
  | .bypass code => decide (code ≠ 0 ∧ code ≠ 1 ∧ code ≠ 2 ∧ code ≠ 8)
  | _ => true

end Sys2Proof
end

