-- ==== Sys2Proof/Tests/Slice0.lean ====
section
/-! SUPPORT. Tests: ill-formed commands that the check refuses, words written out bit by bit from the encoding tables, small
steps with results worked out by hand, and, for every statement with hypotheses, a concrete state and operands that meet the
hypotheses of each of its clauses (test_meets_…). -/

open Sys2Proof Sys2Proof.Machine

namespace Sys2Proof.Tests

set_option Elab.async false

/-- FULL: the clocks run, the pin banks are supplied, the control core has started in its RAM, and unit 1 is a leaf on
engine 5 with slot 3. -/
def up : State :=
  { (State.reset.put F.SYS_MODE_MODE 2).wr R.PIN_BANK_STATUS 0xAA with
    boot := { phase := .done }
    pins := { resetLow := false }
    cc := { parked := false, started := true, pc := 0x100000, vbase := 0x100400, sp := 0x120000, rsp := 0x130000 }
    eng := [(5, { started := true, parked := false, pc := 0x100, ctxid := 1, vbase := 0, sp := 0x800, rsp := 0x900 })]
    units := [(1, some { engine := 5, use := 0xFFFF, slot := some 3 })] }

/-- A state with the given general registers and STATUS in context `c`. -/
def withG (s : State) (c : Ctx) (l : List (RegNo × Word)) (status : Word := 2) : State :=
  s.modCore c fun x => { l.foldl (fun x e => x.setGr e.1 e.2) x with status := status }

/-- A small raster: 16 by 16 active pixels, 48 by 20 in all. -/
def tm : Timing := { hactive := 16, hfp := 8, hsync := 16, hbp := 8, vactive := 16, vfp := 1, vsync := 1, vbp := 2 }

/-- Head `h` of `s` in phase `ph` at line `line`, its last ended line `ended`. -/
def State.beam (s : State) (h : Nat) (ph : HeadPhase) (line ended : Int) : State :=
  s.modHead h fun x => { x with phase := ph, line := line, endedLine := ended, tim := tm, vblank := 4 }

/-- Head 1 of `up`, alone. -/
def hd (ph : HeadPhase) (line ended : Int) : State := State.beam up 1 ph line ended

/-- The timing registers of head 1: 800 by 480 active pixels, and a pixel PLL for them. -/
def regsT (s : State) : State :=
  [(F.HEAD_HTIM_A_HACTIVE 1, 800), (F.HEAD_HTIM_A_HFP 1, 40), (F.HEAD_HTIM_B_HSYNC 1, 48), (F.HEAD_HTIM_B_HBP 1, 40),
   (F.HEAD_VTIM_A_VACTIVE 1, 480), (F.HEAD_VTIM_A_VFP 1, 13), (F.HEAD_VTIM_B_VSYNC 1, 3), (F.HEAD_VTIM_B_VBP 1, 29),
   (F.HEAD_PLL_A_NDIV 1, 60), (F.HEAD_PLL_B_PDIV 1, 20), (F.HEAD_CTRL_PHY 1, 1)].foldl (fun s e => s.put e.1 e.2) s

/-- The bytes of 32-bit words, least significant first. -/
def ws (l : List Nat) : List Byte := l.flatMap (leBytes 4)

/-- A Bybel image laid out by R61, R62 and R64, from sections (type, index, bytes); the last arguments disturb the check words
of the image and of its sections. -/
def mkImg (dram : Bool) (secs : List (Nat × Nat × List Byte)) (badCrc badSec : Nat) : List Byte :=
  let n := secs.length
  let base := 0x100 + 16 * n
  let offs := (secs.foldl (fun (acc : Nat × List Nat) s => (acc.1 + s.2.2.length, acc.2 ++ [acc.1])) (base, [])).2
  let body := secs.flatMap fun s => s.2.2
  let h := leBytes 4 0x4C425942 ++ leBytes 2 0 ++ leBytes 2 1 ++ leBytes 4 (base + body.length + 4) ++ leBytes 2 n ++
    leBytes 2 (if dram then 2 else 0) ++ leBytes 4 0x100 ++ [0, 0, if dram then 1 else 0, 0] ++ leBytes 4 0 ++
    leBytes 4 0xABCD ++ leBytes 4 0x77 ++ leBytes 8 0
  let h := h ++ leBytes 4 (crc32c h).toNat ++ List.replicate 0xD0 0
  let tab := (secs.zip offs).flatMap fun (s, o) =>
    leBytes 2 s.1 ++ leBytes 2 s.2.1 ++ leBytes 4 o ++ leBytes 4 s.2.2.length ++ leBytes 4 ((crc32c s.2.2).toNat ^^^ badSec)
  let raw := h ++ tab ++ body
  raw ++ leBytes 4 ((crc32 raw).toNat ^^^ badCrc)

/-- One leaf that no profile uses, the control core's program, and profile 0 with no head, in both variants. -/
def secs : List (Nat × Nat × List Byte) :=
  [(1, 0, ws [1, 1, 0, 0x80030005, 0, 0, 0, 0, 0]), (3, 0, ws [0x100000, 0x120000, 0]), (8, 0, ws [0, 0, 0, 0]),
   (8, 0x100, ws [0, 0, 0, 0])]

/-- The slots are tried, and slot A holds the image. -/
def trying (ph : BootPhase) (img : List Byte) : State :=
  { State.reset with
    boot := { phase := ph }
    pins := { resetLow := false }
    flash := ((List.range img.length).zip img).filter fun e => e.2 != 0xFF }

/-- The image of slot A as read has property `p`. -/
def imgIs (s : State) (p : Img → Bool) : Bool :=
  match s.slotImg 0 with
  | .inr m => p m
  | .inl _ => false

/-- The machine of `up` in mode `n`. -/
def inMode (n : Nat) : State := up.put F.SYS_MODE_MODE n

def State.words (s : State) (a : Nat) (l : List Nat) : State := s.putRaw a (ws l)
def wds (l : List Nat) : List Word := l.map (BitVec.ofNat 32)

/-- A one-pixel command of Sirocco with code `op`, whose surface descriptors stand at 0x10000100 and 0x10000140. -/
def cmd (op col : Nat) : List Nat :=
  [op * 2 ^ 28, 0x10000100, 0x10000140, 0x00010002, 0x00020001, 0x00010001, col, 0xFFFF]
def desc (base fmt : Nat) : List Nat := [base, 0, 0, 0x100, 0x00080008, fmt, 0, 0]

/-- Sirocco, owner of bank 0, runs the command, which stands at 0x10000020; its source pixel is `p`. -/
def bl (op col fmt p : Nat) : State :=
  let s := up.put (F.STORE_OWNER_OWNER 0) 0x12
  let s := State.words s 0x10000020 (cmd op col)
  let s := State.words s 0x10000100 (desc 0x10001000 fmt)
  let s := State.words s 0x10000140 (desc 0x10002000 0)
  let s := State.words s 0x10001108 [p]
  let s := State.words s 0x10002204 [0x40332211]
  (s.on F.BLIT_STATUS_BUSY).wr R.BLIT_CUR 0x10000020

/-- Sirocco has begun the paced fill of that command. -/
def pacing : PacedSt :=
  { words := wds (cmd 2 5), src := surfOf [], dst := surfOf (wds (desc 0x10002000 0)), row := 0 }

/-- A channel that is to move four words from bank 0 to bank 1, both of which the DMA owns. -/
def dm (n : Nat) : State :=
  let s := (up.put (F.STORE_OWNER_OWNER 0) 0x11).put (F.STORE_OWNER_OWNER 1) 0x11
  let s := s.putRaw 0x10000000 [1, 2, 3, 4]
  let s := ((s.put (F.DMA_CH_CNT01_C0 n) 4).put (F.DMA_CH_CNT01_C1 n) 1).put (F.DMA_CH_CNT2_C2 n) 1
  let s := (s.put (F.DMA_CH_CTRL_ESIZE n) 2).put (F.DMA_CH_CTRL_TRIG n) 3
  let s := (s.wr (R.DMA_CH_SRC n) 0x10000000).wr (R.DMA_CH_DST n) 0x10080000
  (s.wr (R.DMA_CH_SSTEP n 0) 8).wr (R.DMA_CH_DSTEP n 0) 4

/-- Camera 0 receives 8 by 4 RAW8 pixels into bank 1. -/
def cm (lines : Nat) (inFrame ended : Bool) : State :=
  let s := up.put (F.STORE_OWNER_OWNER 1) 0x13
  let s := [(F.CAM_FMT_DT 0, 0x2A), (F.CAM_FMT_OUT 0, 3), (F.CAM_FMT_VC 0, 1), (F.CAM_SIZE_WIDTH 0, 8), (F.CAM_SIZE_HEIGHT 0, 4),
    (F.CAM_STRIDE_STRIDE 0, 0x100), (F.CAM_CTRL_NBUF 0, 2), (F.CAM_CTRL_EN 0, 1), (F.CAM_STATUS_RUN 0, 1),
    (F.CAM_STATUS_INFRAME 0, inFrame.toNat)].foldl (fun s e => s.put e.1 e.2) s
  let s := [0, 1, 2, 3].foldl (fun s b => s.wr (R.CAM_YBASE 0 b) (BitVec.ofNat 32 (0x10080000 + 0x1000 * b))) s
  s.setCam 0 { s.camSt 0 with ybase := 0x10081000, lines := lines, ended := ended }

/-- A Pragus frame with sequence number `seq` (R322), its CRC-32C disturbed by `bad`. -/
def frm (seq bad : Nat) : List Byte :=
  let l : List Byte := [0xD2, 0x4B] ++ leBytes 2 seq ++ List.replicate 24 0
  l ++ leBytes 4 ((crc32c l).toNat ^^^ bad)

/-- Ethernet port 1 sends from bank 0 and receives into bank 1; both head descriptors hold the length word `w`. -/
def eth (w : Nat) : State :=
  let s := (up.put (F.STORE_OWNER_OWNER 0) 0x15).put (F.STORE_OWNER_OWNER 1) 0x15
  let s := (s.wr (R.ETH_TXBASE 1) 0x10000000).wr (R.ETH_RXBASE 1) 0x10080000
  let s := State.words (State.words s 0x10000000 [0x10001001, w, 0, 0]) 0x10080000 [0x10082002, w, 0, 0]
  let s := ((s.on (F.ETH_STATUS_TXRUN 1)).on (F.ETH_STATUS_RXRUN 1)).on (F.ETH_CTRL_PROMISC 1)
  s.setEth 1 { s.ethSt 1 with poll := true }

/-- The serial ports 1 are enabled and routed; their transmit FIFOs hold two entries; I2C and QSPI are busy. -/
def ser : State :=
  let s := [F.UART_CTRL_EN 1, F.SPI_CTRL_EN 1, F.I2C_CTRL_EN 1, F.I2C_STATUS_BUSY 1, F.I2C_CMD_READ 1,
    F.QSPI_STATUS_BUSY].foldl (fun s f => s.on f) up
  let s := ((s.put (F.I2C_CMD_LEN 1) 16).put (F.I2C_TOUT_TOUT 1) 1).put (F.UART_IDLE_CHARS 1) 1
  let s := [(98, 3), (99, 4), (101, 5), (50, 6), (51, 7)].foldl
    (fun s x => ((s.on (F.PIN_SEL_EN x.1)).put (F.PIN_SEL_PIN x.1) x.2).off (F.PIN_CFG_ANA x.2)) s
  (s.setUart 1 { tx := [0x101, 0x102], rx := [3] }).setSpi 1 { tx := [0x101, 0x102], rx := List.replicate 16 3 }

/-! ### Commands that no sender can make -/

theorem test_wf_refuses_misaligned_register : (Instr.registerWrite .core 0x40000002 0).wf = false := by decide
theorem test_wf_refuses_misaligned_rc_read : (Instr.rcRead .core 0x40100001 0).wf = false := by decide
theorem test_wf_refuses_misaligned_aud : (Instr.audRegisterWrite .core 0x0022 0).wf = false := by decide
theorem test_wf_refuses_misaligned_pin_sel : (Instr.pinSelWrite .core 0x0401 0).wf = false := by decide
theorem test_wf_refuses_absent_engine :
    (Instr.corePllLock .pclk { engines := [1024], ridges := [], memories := 0, repairs := 0 }).wf = false := by decide
theorem test_wf_refuses_absent_ridge :
    (Instr.corePllLock .pclk { engines := [], ridges := [128], memories := 0, repairs := 0 }).wf = false := by decide
theorem test_wf_refuses_engine_twice :
    (Instr.corePllLock .pclk { engines := [5, 5], ridges := [], memories := 0, repairs := 0 }).wf = false := by decide
theorem test_wf_refuses_march_outside_store : (Instr.marchDone [0x10800000]).wf = false := by decide
theorem test_wf_refuses_march_descending : (Instr.marchDone [0x10080004, 0x10080000]).wf = false := by decide
theorem test_wf_refuses_march_in_two_banks : (Instr.marchDone [0x10000000, 0x10080000]).wf = false := by decide
theorem test_wf_refuses_long_i2c : (Instr.i2cDone 0 .done (List.replicate 17 0)).wf = false := by decide
theorem test_wf_refuses_long_qspi_read : (Instr.qspiDone (List.replicate 257 0) []).wf = false := by decide +kernel
theorem test_wf_refuses_long_qspi_program :
    (Instr.qspiDone [] ((List.range 257).map fun i => (i, 0))).wf = false := by decide +kernel
theorem test_wf_refuses_other_tap_code : (Instr.bypass 8).wf = false := by decide
theorem test_wf_accepts : (Instr.registerWrite .core 0x40000004 0).wf = true ∧ (Instr.bypass 31).wf = true ∧
    (Instr.marchDone [0x10080000, 0x10080004]).wf = true := by decide

/-! ### Words written out from the tables of R82, R83, R91, R92, R97, R99, R102 to R104, R108 and R112 -/

/-- REG group: major 0, rd 31, rs 0, rt 21, S 0, function 0x023. -/
theorem test_word_macu : decodeInsn .cc 0b00000000000111110101000000100011 = some (.macu .cc 31 10) := by decide +kernel
/-- REG group with the amount in the rt field: rd 8, rs 9, amount 31, S 1, function 0x016. -/
theorem test_word_srai : decodeInsn .cc 0b00000001000010011111110000010110 = some (.srai .cc 8 9 31 true) := by
  decide +kernel
/-- Immediate: major 0x08, rd 1, rs 2, imm16 0x8001. -/
theorem test_word_addis : decodeInsn .cc 0b00100000001000101000000000000001 = some (.addis .cc 1 2 0x8001) := by
  decide +kernel
/-- Load of a pair: major 0x25, rd 30, rs 1; an odd rd is illegal. -/
theorem test_word_ld : decodeInsn .cc 0b10010111110000010000000000010000 = some (.ld .cc 30 1 16) ∧
    decodeInsn .cc 0b10010111111000010000000000010000 = none := by decide +kernel
/-- Short absolute store: major 0x36, rd 7. -/
theorem test_word_swa : decodeInsn .cc 0b11011000111000001111111111111100 = some (.swa .cc 7 0xFFFC) := by decide +kernel
/-- BF with condition code 13, and code 14, which is none. -/
theorem test_word_bf : decodeInsn .cc 0b01011001101000000000000000000010 = some (.bf .cc 13 2) ∧
    decodeInsn .cc 0b01011001110000000000000000000010 = none := by decide +kernel
/-- LOOP: count register 9 at [25:21], [20:17] zero, level 1 at [16], distance 3. -/
theorem test_word_loop : decodeInsn (.se 5) 0b01101001001000010000000000000011 = some (.loop (.se 5) 9 true 3) := by
  decide +kernel
/-- LOOPI: level 1 at [25], count 511 at [24:16], distance 0xFFFF; a distance of 0 is illegal. -/
theorem test_word_loopi : decodeInsn .cc 0b01101111111111111111111111111111 = some (.loopi .cc true 511 0xFFFF) ∧
    decodeInsn .cc 0b01101111111111110000000000000000 = none := by decide +kernel
/-- PIX group: PAL.3 has function 0x013; with S = 1 there is no such instruction. -/
theorem test_word_pal : decodeInsn .cc 0b11110000001000100001100000010011 = some (.palK .cc 3 1 2 3) ∧
    decodeInsn .cc 0b11110000001000100001110000010011 = none := by decide +kernel
/-- STL8 on an engine with rs 24; on the control core it is illegal, and so is rs 25. -/
theorem test_word_stl8 : decodeInsn (.se 5) 0b11110000000110000010100000101001 = some (.stl8 (.se 5) 24 5) ∧
    decodeInsn .cc 0b11110000000110000010100000101001 = none ∧
    decodeInsn (.se 5) 0b11110000000110010010100000101001 = none := by decide +kernel
/-- Special group: POP g9, and COMPLETE g9 of an engine. -/
theorem test_word_special : decodeInsn .cc 0b11111101001000000000000000001100 = some (.pop .cc 9) ∧
    decodeInsn (.se 5) 0b11111100000010010000000000001101 = some (.complete (.se 5) 9) ∧
    decodeInsn .cc 0b11111100000010010000000000001101 = none := by decide +kernel

/-! ### Small steps, with results worked out by hand from the rules -/

/-- The control core after one instruction. -/
def after (i : Instr) (s : State) : CoreSt :=
  match exec i s with
  | .next t => t.cc
  | _ => {}

/-- R90, R91: 0x7FFFFFFF + 1 overflows: N and V set, Z and C clear. -/
theorem test_add_overflow :
    let x := after (.add .cc 5 3 4 true) (withG up .cc [(3, 0x7FFFFFFF), (4, 1)])
    x.gr 5 = 0x80000000 ∧ x.status = 0x90000002 ∧ x.pc = 0x100004 := by decide +kernel
/-- R91: 0 − 1 borrows: C = 0. -/
theorem test_sub_borrow : (after (.sub .cc 5 3 4 true) (withG up .cc [(4, 1)])).status = 0x80000002 := by decide +kernel
/-- R79: a write to g0 is discarded. -/
theorem test_g0 : (after (.addi .cc 0 0 7) up).gr 0 = 0 := by decide +kernel
/-- R96: −7 / 2 is −3, remainder −1. -/
theorem test_div :
    let x := after (.div .cc 3 4) (withG up .cc [(3, 0xFFFFFFF9), (4, 2)])
    x.mlo = 0xFFFFFFFD ∧ x.mhi = 0xFFFFFFFF := by decide +kernel
/-- R108: −32,768 × −32,768 saturates to 32,767; 0x4000 × 0x4000 is 0x2000. -/
theorem test_pmulh :
    (after (.pmulh .cc 5 3 4) (withG up .cc [(3, 0x80004000), (4, 0x80004000)])).gr 5 = 0x7FFF2000 := by decide +kernel
/-- R98: LH sign-extends; the byte at the lower address is the low one. -/
theorem test_lh :
    (after (.lh .cc 5 3 2) ((withG up .cc [(3, 0x110000)]).putRaw 0x110002 [0x34, 0x92])).gr 5 = 0xFFFF9234 := by
  decide +kernel
/-- R124: a misaligned load raises exception 3 with the address in EADDR and access kind 2. -/
theorem test_misaligned_load :
    let x := after (.lw .cc 5 3 2) ((withG up .cc [(3, 0x110000)]).putRaw 0x10040C [0x40, 0x20, 0x10, 0])
    x.ecause = 0x00000203 ∧ x.eaddr = 0x110002 ∧ x.epc = 0x100000 ∧ x.estat = 2 ∧ x.pc = 0x102040 := by decide +kernel
/-- R6: a one written to a W1C bit clears it, a zero leaves it. -/
theorem test_w1c :
    (match exec (.registerWrite .core (BitVec.ofNat 32 (R.HEAD_EVT_STATUS 2)) 1) (up.wr (R.HEAD_EVT_STATUS 2) 3) with
      | .next t => t.rd (R.HEAD_EVT_STATUS 2)
      | _ => 0) = 2 := by decide +kernel
/-- A step takes the front command, and only that. -/
theorem test_queue :
    (match step { up with pending := [.tapReset, .idcode] } with
      | .next t => t.pending
      | _ => []) = [.idcode] := by decide +kernel
/-- The well-known results of CRC-32 (R64) and CRC-32C (R62) over the string 123456789; the values stand in no file of the
spec. -/
theorem test_crc : crc32 [49, 50, 51, 52, 53, 54, 55, 56, 57] = 0xCBF43926 ∧
    crc32c [49, 50, 51, 52, 53, 54, 55, 56, 57] = 0xE3069283 := by decide +kernel

/-! ### States that meet the hypotheses of the statements -/

set_option linter.unusedVariables false

theorem test_meets_Loads :
    (let s := (withG up .cc [(3, 0x100010), (4, 0x7FF)]).putRaw 0x100010 [0x80, 0x81, 1, 2]
     ∀ l ∈ [((Instr.lb .cc 5 3 0, 1), [(0x80 : Byte)]), ((.lbu .cc 5 3 0, 1), [0x80]), ((.lh .cc 5 3 0, 2), [0x80, 0x81]),
       ((.lhu .cc 5 3 0, 2), [0x80, 0x81]), ((.lw .cc 5 3 0, 4), [0x80, 0x81, 1, 2]),
       ((.ld .cc 30 3 0, 8), [0x80, 0x81, 1, 2, 0, 0, 0, 0])],
       s.Issues .cc l.1.1 ∧ (s.found .cc).whereOf .cc 0x100010 l.1.2 false = .mem 0x100010 ∧
         (s.found .cc).eccBytes 0x100010 l.1.2 = (l.2, .clean)) ∧
    (let s := (up.modCore .cc fun x => { x with bnk := 0x10, sp := 0x100020 }).putRaw 0x100010 [0x80, 0x81, 1, 2]
     ∀ l ∈ [((Instr.lbua .cc 5 16, 1), [(0x80 : Byte)]), ((.lhua .cc 5 16, 2), [0x80, 0x81]),
       ((.lwa .cc 5 16, 4), [0x80, 0x81, 1, 2]), ((.lwsp .cc 5 0xFFF0, 4), [0x80, 0x81, 1, 2])],
       s.Issues .cc l.1.1 ∧ (s.found .cc).whereOf .cc 0x100010 l.1.2 false = .mem 0x100010 ∧
         (s.found .cc).eccBytes 0x100010 l.1.2 = (l.2, .clean)) := by
  unfold State.Issues; decide +kernel

theorem test_meets_Stores :
    (let s := withG up (.se 5) [(3, 0xFF8), (4, 0xA1B2C3D4)]
     ∀ l ∈ [(Instr.sb (.se 5) 4 3 0, 1), (.sh (.se 5) 4 3 0, 2), (.sw (.se 5) 4 3 0, 4), (.sd (.se 5) 4 3 0, 8)],
       s.Issues (.se 5) l.1 ∧ (s.found (.se 5)).whereOf (.se 5) 0xFF8 l.2 true = .mem 0x20085FF8) ∧
    (let s := up.modCore (.se 5) fun x => { x with bnk := 0, sp := 0x800 }
     ∀ l ∈ [(Instr.sba (.se 5) 4 0x7FC, 1), (.sha (.se 5) 4 0x7FC, 2), (.swa (.se 5) 4 0x7FC, 4), (.swsp (.se 5) 4 0xFFFC, 4)],
       s.Issues (.se 5) l.1 ∧ (s.found (.se 5)).whereOf (.se 5) 0x7FC l.2 true = .mem 0x200857FC) := by
  unfold State.Issues; decide +kernel

theorem test_meets_AccessFaults :
    (let s := withG up .cc [(3, 0x100001)]
     s.Issues .cc (.lw .cc 5 3 0) ∧ s.Issues .cc (.sd .cc 4 3 0) ∧ ((s.cc.gr 3).toNat + 0) % 2 ≠ 0) ∧
    (let s := withG up .cc [(3, 0x21000000)]
     s.Issues .cc (.lb .cc 5 3 0) ∧ s.Issues .cc (.sw .cc 5 3 0) ∧
       (s.found .cc).whereOf .cc 0x21000000 1 false = .refused 1 0 0 ∧
       (s.found .cc).whereOf .cc 0x21000000 4 true = .refused 1 0 0) ∧
    (let s := { withG up .cc [(3, 0x100010)] with ecc := [(0x100010, 3)] }
     s.Issues .cc (.lh .cc 5 3 0) ∧ (s.found .cc).whereOf .cc 0x100010 2 false = .mem 0x100010 ∧
       ((s.found .cc).eccBytes 0x100010 2).2 = .uncorr) := by
  unfold State.Issues; decide +kernel

theorem test_meets_AccessFaults_forms :
    (let s := up.modCore .cc fun x => { x with bnk := 0x10, sp := 0x100022 }
     (∀ i ∈ [Instr.lhua .cc 5 0x11, .lwa .cc 5 0x12, .lwsp .cc 5 0, .sha .cc 5 0x11, .swa .cc 5 0x12, .swsp .cc 5 0],
       s.Issues .cc i) ∧ (0x100011 : Word).toNat % 2 ≠ 0 ∧ s.cc.sp.toNat % 4 ≠ 0) ∧
    (let s := (withG up .cc [(3, 0x10000000)]).put (F.STORE_OWNER_OWNER 0) 0x12
     s.Issues .cc (.lw .cc 5 3 0) ∧ s.Issues .cc (.sw .cc 5 3 0) ∧
       (s.found .cc).whereOf .cc 0x10000000 4 false = .refused 2 0 0 ∧
       (s.found .cc).whereOf .cc 0x10000000 4 true = .refused 2 0 0) ∧
    (let s := withG up .cc [(3, 0x20085800)]
     s.Issues .cc (.lw .cc 5 3 0) ∧ s.Issues .cc (.sw .cc 5 3 0) ∧
       (s.found .cc).whereOf .cc 0x20085800 4 false = .refused 1 1 5 ∧
       (s.found .cc).whereOf .cc 0x20085800 4 true = .refused 1 1 5) ∧
    (let s := withG up .cc [(3, 0x140001)]
     (∀ i ∈ [Instr.ll .cc 5 3 0, .sc .cc 5 3 0], s.Issues .cc i) ∧ (s.cc.gr 3).toNat % 4 ≠ 0) := by
  unfold State.Issues; decide +kernel

theorem test_meets_AccessFaults_stack :
    (let s := { up with ecc := [(0x20085800, 3)] }
     (∀ i ∈ [Instr.pop (.se 5) 4, .ret (.se 5)], s.Issues (.se 5) i) ∧
       (s.found (.se 5)).whereOf (.se 5) 0x800 4 false = .mem 0x20085800 ∧
       ((s.found (.se 5)).eccBytes 0x20085800 4).2 = .uncorr) ∧
    (let s := up.modCore (.se 5) fun x => { x with sp := 0x802 }
     (∀ i ∈ [Instr.push (.se 5) 4, .pop (.se 5) 4, .call (.se 5) 8, .callr (.se 5) 4, .ret (.se 5)], s.Issues (.se 5) i) ∧
       (s.engine 5).sp.toNat % 4 ≠ 0 ∧ (s.engine 5).split = false ∧ bitsOf ((s.engine 5).gr 4) 0 2 = 0) ∧
    (let s := up.modCore (.se 5) fun x => { x with sp := 0x0FFFFFFC }
     (∀ i ∈ [Instr.push (.se 5) 4, .pop (.se 5) 4, .call (.se 5) 8, .callr (.se 5) 4, .ret (.se 5)], s.Issues (.se 5) i) ∧
       (s.found (.se 5)).whereOf (.se 5) 0x0FFFFFF8 4 true = .refused 1 0 0 ∧
       (s.found (.se 5)).whereOf (.se 5) 0x0FFFFFFC 4 false = .refused 1 0 0) := by
  unfold State.Issues; decide +kernel

theorem test_meets_Stacks :
    (let s := withG up (.se 5) [(3, 0x40)]
     (∀ i ∈ [Instr.push (.se 5) 3, .pop (.se 5) 3, .call (.se 5) 8, .callr (.se 5) 3, .ret (.se 5)], s.Issues (.se 5) i) ∧
       (s.engine 5).split = false ∧ (s.engine 5).sp = 0x800 ∧
       (s.found (.se 5)).whereOf (.se 5) 0x7FC 4 true = .mem 0x200857FC ∧
       (s.found (.se 5)).whereOf (.se 5) 0x800 4 false = .mem 0x20085800 ∧
       (s.found (.se 5)).eccBytes 0x20085800 4 = ([0, 0, 0, 0], .clean) ∧ bitsOf ((s.engine 5).gr 3) 0 2 = 0) ∧
    (let s := up.modCore .cc fun x => { x with split := true }
     (∀ i ∈ [Instr.call .cc 8, .ret .cc], s.Issues .cc i) ∧ s.cc.split = true ∧ s.cc.rsp = 0x130000 ∧
       (s.found .cc).whereOf .cc 0x12FFFC 4 true = .mem 0x12FFFC ∧
       (s.found .cc).whereOf .cc 0x130000 4 false = .mem 0x130000 ∧
       (s.found .cc).eccBytes 0x130000 4 = ([0, 0, 0, 0], .clean)) := by
  unfold State.Issues; decide +kernel

/-- Engine 5 with a line task of ring 0 of head 0, for line `line` and pixels 8 to 99; the slot is line 0's. -/
def lineUp (line : Nat) : State :=
  { up.modHead 0 fun x => { x with slots := [(0, 0)] } with
    units := [(1, some { engine := 5, use := 0xFFFF, slot := some 3, x0 := 8, x1 := 100,
                         queue := [{ mb0 := BitVec.ofNat 32 (0x10000000 + line), mb1 := 0x00640008 }] })] }

theorem test_meets_StoreToLine :
    (∀ i ∈ [Instr.stl (.se 5) 3 4, .stl8 (.se 5) 8 4], (lineUp 0).Issues (.se 5) i ∧ up.Issues (.se 5) i ∧
      (lineUp 100).Issues (.se 5) i) ∧
    ((lineUp 0).found (.se 5)).linePut 5 = .go { mb0 := 0x10000000, mb1 := 0x00640008 } ∧
    (up.found (.se 5)).linePut 5 = .clip ∧ ((lineUp 100).found (.se 5)).linePut 5 = .stall ∧
    (lineUp 100).linePut 5 = .stall ∧
    ({ lineUp 0 with
       units := [(1, some { engine := 5, queue := [{ mb0 := 0x10000000, discard := true }] })] }.found (.se 5)).linePut 5 =
      .drop ∧
    (let s := (lineUp 0).modCore (.se 5) fun x => { x with stalled := some (.stl (.se 5) 3 4) }
     let u := s.modCore (.se 5) fun y => { y with stalled := none, haltReq := none, skipCmp := some y.pc }
     (s.engine 5).halted = false ∧ (s.engine 5).parked = false ∧ (s.engine 5).parkReq = false ∧ s.clocked (.se 5) = true ∧
       u.Issues (.se 5) (.stl (.se 5) 3 4) ∧ s.linePut 5 ≠ .stall ∧ (u.found (.se 5)).linePut 5 = s.linePut 5) := by
  unfold State.Issues; decide +kernel

/-- The vector of exception 9 (control core) or 4 (engine, vector table at 0) holds a word address. -/
theorem test_meets_ExceptionEntry_first :
    (let s := up.putRaw 0x100424 [0x40, 0x20, 0x10, 0]
     s.cc.exl = false ∧ s.vectorKey .cc (s.cc.vbase + BitVec.ofNat 32 (4 * 9)).toNat = some 0x100424 ∧
       s.eccBytes 0x100424 4 = ([0x40, 0x20, 0x10, 0], .clean) ∧ bitsOf (0x00102040 : Word) 0 2 = 0 ∧
       romHandler (s.cc.vbase + BitVec.ofNat 32 (4 * 9)) 0x00102040 = false) ∧
    (let s := { up with cc := { up.cc with vbase := 0xFC00 } }
     s.cc.exl = false ∧ s.vectorKey .cc (s.cc.vbase + BitVec.ofNat 32 (4 * 9)).toNat = some 0xFC24 ∧
       romHandler (s.cc.vbase + BitVec.ofNat 32 (4 * 9)) 0 = true) ∧
    ((up.engine 5).exl = false ∧ (up.engine 5).faultPark = false ∧
      up.vectorKey (.se 5) ((up.engine 5).vbase + BitVec.ofNat 32 (4 * 4)).toNat = some 0x20085010 ∧
      up.eccBytes 0x20085010 4 = ([0, 0, 0, 0], .clean)) ∧
    (let s := { up with cc := { up.cc with status := 6 } }.putRaw 0x10042C [0x40, 0x20, 0x10, 0]
     s.cc.exl = true ∧ bitsOf s.cc.ecause 0 8 ≠ 11 ∧
       s.vectorKey .cc (s.cc.vbase + BitVec.ofNat 32 (4 * 11)).toNat = some 0x10042C ∧
       s.eccBytes 0x10042C 4 = ([0x40, 0x20, 0x10, 0], .clean) ∧
       romHandler (s.cc.vbase + BitVec.ofNat 32 (4 * 11)) 0x00102040 = false) := by
  decide +kernel

theorem test_meets_ModeRequests :
    (∀ n ∈ [1, 2, 3, 5], (inMode n).pclkOn = true ∧ (inMode n).flag F.SYS_MODE_TRANS = false ∧ (inMode n).modeNow = n ∧
      (inMode n).prof.leanActive = false ∧ (inMode n).leanActive = false ∧
      (inMode n).flag F.SYS_REFUGE_CAUSE_DFLT = false ∧ (inMode n).flag F.SYS_REFUGE_CAUSE_SPARE = false ∧
      (inMode n).flag F.SYS_REFUGE_CAUSE_LEANFAIL = false) ∧
    (let s := (inMode 3).on F.SYS_STATUS_SUPWARN
     s.pclkOn = true ∧ s.flag F.SYS_MODE_TRANS = false ∧ s.modeNow = 3 ∧ s.leanActive = true) ∧
    (let s := (inMode 5).on F.SYS_REFUGE_CAUSE_DFLT
     s.pclkOn = true ∧ s.flag F.SYS_MODE_TRANS = false ∧ s.modeNow = 5 ∧ s.flag F.SYS_REFUGE_CAUSE_DFLT = true) ∧
    (let s := ((inMode 2).on F.SYS_MODE_TRANS).put F.SYS_MODE_TARGET 4
     s.pclkOn = true ∧ s.flag F.SYS_MODE_TRANS = true ∧ s.get F.SYS_MODE_TARGET = 4) ∧
    (∀ n ∈ [2, 3, 5],
     let s := { ((inMode 4).on F.SYS_MODE_TRANS).put F.SYS_MODE_TARGET n with mode := { up.mode with resumeStep := 3 } }
     s.pclkOn = true ∧ s.flag F.SYS_MODE_TRANS = true ∧ s.get F.SYS_MODE_TARGET = n) ∧
    (∀ n ∈ [2, 3], let s := ((inMode 5).on F.SYS_MODE_TRANS).put F.SYS_MODE_TARGET n
     s.pclkOn = true ∧ s.flag F.SYS_MODE_TRANS = true ∧ s.get F.SYS_MODE_TARGET = n ∧ s.modeNow = 5) := by
  decide +kernel

theorem test_meets_clz :
    let s := withG up (.se 5) [(3, 1)]
    s.Issues (.se 5) (.clz (.se 5) 4 3 true) ∧ (∀ i, 32 - 31 ≤ i → bitOf ((s.core (.se 5)).gr 3) i = false) ∧
      bitOf ((s.core (.se 5)).gr 3) (31 - 31) = true := by
  refine ⟨by unfold State.Issues; decide +kernel, fun i hi => ?_, by decide +kernel⟩
  rcases Nat.lt_or_ge i 32 with h | h
  · exact (by decide +kernel : ∀ i, i < 32 → 32 - 31 ≤ i → bitOf (((withG up (.se 5) [(3, 1)]).core (.se 5)).gr 3) i = false)
      i h hi
  · simp [bitOf, BitVec.getLsbD_of_ge _ _ h]

theorem test_meets_StoreBanks_held :
    { (up.on (F.STORE_OWNER_BUSY 15)).on F.STORE_HO_TIMEOUT_LIMIT with eng := [] }.NoneHeld :=
  ⟨by decide +kernel, fun _ => rfl, rfl, fun h l hh hl =>
    (by decide +kernel : ∀ h, h < 4 → ∀ l, l < 8 → State.fetchHeld
      { (up.on (F.STORE_OWNER_BUSY 15)).on F.STORE_HO_TIMEOUT_LIMIT with eng := [] } h l = false) h hh l hl⟩

theorem test_meets_FormsKept : up.wf = true ∧ ∃ t, step up = .next t := ⟨by decide +kernel, _, rfl⟩

theorem test_meets_InstructionWords :
    insnCtx (.tfetch (.se 5) 24 3) = some (.se 5) ∧ legalInsn (.tfetch (.se 5) 24 3) = true ∧
      decodeInsn (.se 5) (encodeInsn (.tfetch (.se 5) 24 3)) = some (.tfetch (.se 5) 24 3) := by
  decide +kernel

theorem test_meets_IntegerArithmetic :
  (let s : State := withG up .cc [(3, 0x7FFFFFFF), (4, 1)] 0x20000002;
   let c : Ctx := .cc;
   let rd : RegNo := 0;
   let rs : RegNo := 3;
   let rt : RegNo := 4;
   let fl : Bool := true;
   (∀ i ∈ [.or c rd rs rt fl, .and c rd rs rt fl, .xor c rd rs rt fl, .andn c rd rs rt fl, .add c rd rs rt fl, .sub c rd
     rs rt fl, .adc c rd rs rt fl, .sbc c rd rs rt fl, .slt c rd rs rt fl, .sltu c rd rs rt fl, .min c rd rs rt fl, .max
     c rd rs rt fl, .minu c rd rs rt fl, .maxu c rd rs rt fl, .neg c rd rs fl, .abs c rd rs fl], s.Issues c i)) := by
  unfold State.Issues; decide +kernel

theorem test_meets_ShiftsAndBytes :
  (let s : State := withG up (.se 5) [(3, 0x80000000), (4, 32)];
   let c : Ctx := .se 5;
   let rd : RegNo := 31;
   let rs : RegNo := 3;
   let rt : RegNo := 4;
   let fl : Bool := false;
   let amt : BitVec 5 := 31;
   (∀ i ∈ [.sll c rd rs rt fl, .srl c rd rs rt fl, .sra c rd rs rt fl, .ror c rd rs rt fl, .slli c rd rs amt fl, .srli c
     rd rs amt fl, .srai c rd rs amt fl, .rori c rd rs amt fl, .sextb c rd rs fl, .sexth c rd rs fl, .bext c rd rs rt
     fl], s.Issues c i)) := by
  unfold State.Issues; decide +kernel

theorem test_meets_Immediates :
  (let s : State := withG up .cc [(3, 0x7FFFFFFF)];
   let c : Ctx := .cc;
   let rd : RegNo := 31;
   let rs : RegNo := 3;
   let imm : BitVec 16 := 0x8000;
   (∀ i ∈ [.addi c rd rs imm, .andi c rd rs imm, .ori c rd rs imm, .xori c rd rs imm, .lui c rd imm, .slti c rd rs imm,
     .sltiu c rd rs imm, .addis c rd rs imm, .adjsp c imm], s.Issues c i)) := by
  unfold State.Issues; decide +kernel

theorem test_meets_OverflowTraps :
  (let c : Ctx := .cc;
   let s : State := withG up c [(3, 0x7FFFFFFF), (4, 1)] 0x302;
   let rd : RegNo := 5;
   let rs : RegNo := 3;
   let rt : RegNo := 4;
   let x := s.core c;
   let a := x.gr rs;
   let b := x.gr rt;
   let ovf := fun v : Int => v < -(2 ^ 31) ∨ 2 ^ 31 ≤ v;
   let cy : Int := x.fC.toNat;
   let imm : BitVec 16 := 1;
   let k := imm.signExtend 32;
   (∀ i ∈ [.add c rd rs rt true, .adc c rd rs rt true, .addis c rd rs imm], s.Issues c i) ∧ (bitOf x.status stOVT = true)
     ∧ (ovf (a.toInt + b.toInt)) ∧ (ovf (a.toInt + b.toInt + cy)) ∧ (ovf (a.toInt + k.toInt))) ∧
  (let c : Ctx := .cc;
   let rd : RegNo := 5;
   let rs : RegNo := 3;
   let rt : RegNo := 4;
   let s : State := withG up c [(3, 0x80000000), (4, 1)] 0x302;
   let x := s.core c;
   let a := x.gr rs;
   let b := x.gr rt;
   let ovf := fun v : Int => v < -(2 ^ 31) ∨ 2 ^ 31 ≤ v;
   (bitOf x.status stOVT = true) ∧ (s.Issues c (.sub c rd rs rt true)) ∧ (ovf (a.toInt - b.toInt))) ∧
  (let c : Ctx := .cc;
   let rd : RegNo := 5;
   let rs : RegNo := 3;
   let rt : RegNo := 4;
   let s : State := withG up c [(3, 0x80000000), (4, 0)] 0x302;
   let x := s.core c;
   let a := x.gr rs;
   let b := x.gr rt;
   let cy : Int := x.fC.toNat;
   let ovf := fun v : Int => v < -(2 ^ 31) ∨ 2 ^ 31 ≤ v;
   (bitOf x.status stOVT = true) ∧ (s.Issues c (.sbc c rd rs rt true)) ∧ (ovf (a.toInt - b.toInt - (1 - cy)))) ∧
  (let c : Ctx := .cc;
   let rd : RegNo := 5;
   let rs : RegNo := 3;
   let s : State := withG up c [(3, 0x80000000)] 0x302;
   let fl : Bool := false;
   let x := s.core c;
   let a := x.gr rs;
   (bitOf x.status stOVT = true) ∧ (s.Issues c (.neg c rd rs fl)) ∧ (a = 0x80000000) ∧ (s.Issues c (.abs c rd rs fl))) := by
  unfold State.Issues; refine ⟨?_, ?_, ?_, ?_⟩ <;> decide +kernel

theorem test_meets_Products :
  (let c : Ctx := .se 5;
   let s : State := withG up c [(3, 0xFFFFFFFF), (4, 0x80000000)];
   let rs : RegNo := 3;
   let rt : RegNo := 4;
   (∀ i ∈ [.mul c rs rt, .mulu c rs rt, .mac c rs rt, .macu c rs rt], s.Issues c i)) ∧
  (let c : Ctx := .se 5;
   let d : Nat := 0;
   let v : BitVec 64 := 7;
   let ps : List (Nat × BitVec 64) := [];
   let s : State := up.modCore c fun x => { x with products := [(0, 7)] };
   let x := s.core c;
   (x.products = [(d, v)]) ∧ (d ≤ s.issueTime c) ∧ (x.products = (d, v) :: ps)) ∧
  (let c : Ctx := .se 5;
   let d : Nat := 1;
   let v : BitVec 64 := 7;
   let s : State := up.modCore c fun x => { x with products := [(1, 7)] };
   let x := s.core c;
   (x.products = [(d, v)]) ∧ (s.issueTime c < d)) := by
  unfold State.Issues; refine ⟨?_, ?_, ?_⟩ <;> decide +kernel

theorem test_meets_Divides :
  (let c : Ctx := .cc;
   let rs : RegNo := 3;
   let rt : RegNo := 4;
   let s : State := withG up c [(3, 0x80000000), (4, 1)];
   let x := s.core c;
   let a := x.gr rs;
   let b := x.gr rt;
   (s.Issues c (.div c rs rt)) ∧ (b ≠ 0) ∧ (¬ (a = 0x80000000 ∧ b = 0xFFFFFFFF)) ∧ (s.Issues c (.divu c rs rt))) ∧
  (let c : Ctx := .cc;
   let rs : RegNo := 3;
   let rt : RegNo := 4;
   let s : State := withG up c [(3, 0x80000000), (4, 0xFFFFFFFF)];
   let x := s.core c;
   let a := x.gr rs;
   let b := x.gr rt;
   (s.Issues c (.div c rs rt)) ∧ (a = 0x80000000) ∧ (b = 0xFFFFFFFF) ∧ (bitOf x.status stOVT = false)) ∧
  (let c : Ctx := .cc;
   let rs : RegNo := 3;
   let rt : RegNo := 4;
   let s : State := withG up c [(3, 5)];
   let i := .div c rs rt;
   let x := s.core c;
   let b := x.gr rt;
   (i = .div c rs rt ∨ i = .divu c rs rt) ∧ (s.Issues c i) ∧ (b = 0) ∧ (bitOf x.status stDZT = false)) ∧
  (let c : Ctx := .cc;
   let rs : RegNo := 3;
   let rt : RegNo := 4;
   let s : State := withG up c [(3, 5)] 0x102;
   let i := .divu c rs rt;
   let x := s.core c;
   let b := x.gr rt;
   (i = .div c rs rt ∨ i = .divu c rs rt) ∧ (s.Issues c i) ∧ (b = 0) ∧ (bitOf x.status stDZT = true)) ∧
  (let c : Ctx := .cc;
   let rs : RegNo := 3;
   let rt : RegNo := 4;
   let s : State := withG up c [(3, 0x80000000), (4, 0xFFFFFFFF)] 0x302;
   let x := s.core c;
   let a := x.gr rs;
   let b := x.gr rt;
   (s.Issues c (.div c rs rt)) ∧ (a = 0x80000000) ∧ (b = 0xFFFFFFFF) ∧ (bitOf x.status stOVT = true)) := by
  unfold State.Issues; refine ⟨?_, ?_, ?_, ?_, ?_⟩ <;> decide +kernel

theorem test_meets_Branches :
  (let c : Ctx := .se 5;
   let rs : RegNo := 3;
   let rt : RegNo := 4;
   let off : BitVec 16 := 0x8000;
   let s : State := withG up c [(3, 0x80000000), (4, 0x80000000)];
   let code : BitVec 5 := 13;
   let o26 : BitVec 26 := 0x2000000;
   let x := s.core c;
   let a := x.gr rs;
   (∀ i ∈ [.beq c rs rt off, .bne c rs rt off, .blt c rs rt off, .bge c rs rt off, .bltu c rs rt off, .bgeu c rs rt off,
     .bf c code off, .j c o26, .jr c rs, .barp c], s.Issues c i) ∧ (bitsOf a 0 2 = 0)) ∧
  (let c : Ctx := .se 5;
   let rs : RegNo := 3;
   let s : State := withG up c [(3, 0x80000001)];
   let x := s.core c;
   let a := x.gr rs;
   (s.Issues c (.jr c rs)) ∧ (bitsOf a 0 2 ≠ 0)) := by
  unfold State.Issues; refine ⟨?_, ?_⟩ <;> decide +kernel

theorem test_meets_Loops :
  (let y : CoreSt := { lc0 := 2, ls0 := 8, le0 := 16, lc1 := 2, ls1 := 4, le1 := 12 };
   let a : Word := 12;
   (a = y.le1) ∧ (1 < y.lc1.toNat)) ∧
  (let y : CoreSt := { lc1 := 1, le1 := 12 };
   let a : Word := 12;
   (a = y.le1) ∧ (y.lc1 = 1)) ∧
  (let y : CoreSt := { lc0 := 2, ls0 := 8, le0 := 16, lc1 := 2, ls1 := 4, le1 := 12 };
   let a : Word := 16;
   (¬ (a = y.le1 ∧ y.lc1 ≠ 0)) ∧ (a = y.le0) ∧ (1 < y.lc0.toNat)) ∧
  (let y : CoreSt := { lc0 := 1, le0 := 16, lc1 := 2, le1 := 12 };
   let a : Word := 16;
   (¬ (a = y.le1 ∧ y.lc1 ≠ 0)) ∧ (a = y.le0) ∧ (y.lc0 = 1)) ∧
  (let y : CoreSt := { lc0 := 2, ls0 := 8, le0 := 16, lc1 := 2, ls1 := 4, le1 := 12 };
   let a : Word := 20;
   (¬ (a = y.le1 ∧ y.lc1 ≠ 0)) ∧ (¬ (a = y.le0 ∧ y.lc0 ≠ 0))) := by
  refine ⟨?_, ?_, ?_, ?_, ?_⟩ <;> decide +kernel

theorem test_meets_AddressMaps :
  (let a : Nat := 0xFFF;
   (a < 0x1000)) ∧
  (let a : Nat := 0x10000;
   (0x10000 ≤ a) ∧ (a < 0x20000)) ∧
  (let a : Nat := 0x20040;
   (0x20040 ≤ a) ∧ (a < 0x10000000)) ∧
  (let s : State := up;
   let a : Nat := 0xFFFF;
   (s.cc.priv = true) ∧ (a < 0x10000)) ∧
  (let s : State := up;
   let a : Nat := 0x15FFFF;
   (s.cc.priv = true) ∧ (0x100000 ≤ a) ∧ (a < 0x160000)) ∧
  (let s : State := up;
   let a : Nat := 0x20F7FFFF;
   (s.cc.priv = true) ∧ (0x20000000 ≤ a) ∧ (a < 0x21000000) ∧ (a % 0x100000 < 0x80000)) ∧
  (let s : State := up;
   let a : Nat := 0x2FFFFFFF;
   (s.cc.priv = true) ∧ (0x21000000 ≤ a) ∧ (a < 0x30000000)) ∧
  (let s : State := up;
   let h : Nat := 3;
   (s.cc.priv = true) ∧ (h < 4)) ∧
  (let s : State := { up with cc := { up.cc with status := 0 } };
   let a : Nat := 0x7FFFFFFF;
   (s.cc.priv = false) ∧ (0x20000000 ≤ a) ∧ (a < 0x80000000)) := by
  refine ⟨?_, ?_, ?_, ?_, ?_, ?_, ?_, ?_, ?_⟩ <;> decide +kernel

theorem test_meets_Locks :
  (let c : Ctx := .se 5;
   let rd : RegNo := 4;
   let rs : RegNo := 3;
   let imm : BitVec 16 := 0;
   let k : Nat := 0x20000000;
   let bs : List Byte := [0, 0, 0, 0];
   let e : Ecc := .clean;
   let key : Nat := 0x20000000;
   let j : Nat := 0x20000003;
   let s : State := (withG up c [(3, 0x10000)]).modCore c fun x => { x with resv := some (0x20000000) };
   let x := s.core c;
   let a := x.gr rs + imm.signExtend 32;
   (s.Issues c (.ll c rd rs imm)) ∧ (a.toNat % 4 = 0) ∧ ((s.found c).lockKey c a.toNat = .inr k) ∧ ((s.found c).whereOf c
     a.toNat 4 false = .mem k) ∧ ((s.found c).eccBytes k 4 = (bs, e)) ∧ (e ≠ .uncorr) ∧ (s.Issues c (.sc c rd rs imm)) ∧
     ((s.found c).whereOf c a.toNat 4 true = .mem k) ∧ (x.resv = some k) ∧ (x.resv = some key) ∧ (key / 4 * 4 ≤ j) ∧ (j <
     key / 4 * 4 + 4)) ∧
  (let c : Ctx := .se 5;
   let rd : RegNo := 4;
   let rs : RegNo := 3;
   let imm : BitVec 16 := 0;
   let k : Nat := 0x20000000;
   let s : State := withG up c [(3, 0x10000)];
   let x := s.core c;
   let a := x.gr rs + imm.signExtend 32;
   (s.Issues c (.sc c rd rs imm)) ∧ (a.toNat % 4 = 0) ∧ ((s.found c).lockKey c a.toNat = .inr k) ∧ (x.resv ≠ some k)) ∧
  (let c : Ctx := .se 5;
   let rd : RegNo := 4;
   let rs : RegNo := 3;
   let imm : BitVec 16 := 0;
   let s : State := withG up c [(3, 0x800)];
   let sub : Nat := 1;
   let x := s.core c;
   let a := x.gr rs + imm.signExtend 32;
   (s.Issues c (.ll c rd rs imm)) ∧ (a.toNat % 4 = 0) ∧ ((s.found c).lockKey c a.toNat = .inl sub) ∧ (s.Issues c (.sc c
     rd rs imm))) ∧
  (∀ b ∈ [0x20000, 0xFFFF, 0x10800000, 0x80000000, 0x30000000],
     ¬ (0x10000 ≤ b ∧ b < 0x20000) ∧ ¬ (0x10000000 ≤ b ∧ b < 0x10800000)) ∧
  (let s : State := { up with cc := { up.cc with status := 0 } };
   ∀ b ∈ [0x20000000, 0x7FFFFFFF], s.cc.priv = false ∧ 0x20000000 ≤ b ∧ b < 0x80000000) ∧
  (∀ b ∈ [0x140000, 0x15FFFF, 0x10000000, 0x107FFFFF, 0x20000000, 0x20F7FFFF], up.cc.priv = true ∧
     ((0x140000 ≤ b ∧ b < 0x160000) ∨ (0x10000000 ≤ b ∧ b < 0x10800000) ∨
       (0x20000000 ≤ b ∧ b < 0x21000000 ∧ b % 0x100000 < 0x80000))) ∧
  (∀ b ∈ [0x13FFFF, 0x160000, 0x10800000, 0x20F80000, 0x21000000], up.cc.priv = true ∧
     ¬ ((0x140000 ≤ b ∧ b < 0x160000) ∨ (0x10000000 ≤ b ∧ b < 0x10800000) ∨
       (0x20000000 ≤ b ∧ b < 0x21000000 ∧ b % 0x100000 < 0x80000))) := by
  unfold State.Issues; refine ⟨?_, ?_, ?_, ?_, ?_, ?_, ?_⟩ <;> decide +kernel

theorem test_meets_PixelInstructions :
  (let c : Ctx := .se 5;
   let rs : RegNo := 3;
   let s : State := up;
   let a := (s.core c).gr rs;
   (a = 0)) ∧
  (let c : Ctx := .se 5;
   let rs : RegNo := 3;
   let s : State := withG up c [(3, 5)];
   let p : Nat := 2;
   let m : Nat := 80;
   let T : Nat := 3664;
   let a := (s.core c).gr rs;
   (a ≠ 0) ∧ (p % 2 = 0) ∧ (2 ^ p ≤ a.toNat) ∧ (a.toNat < 2 ^ (p + 2)) ∧ (m = (if 6 ≤ p then a.toNat / 2 ^ (p - 6) else
     a.toNat * 2 ^ (6 - p))) ∧ ((2 * T - 1) ^ 2 * m ≤ 65536 ^ 2) ∧ (65536 ^ 2 < (2 * T + 1) ^ 2 * m)) ∧
  (let c : Ctx := .se 5;
   let rd : RegNo := 8;
   let rs : RegNo := 3;
   let rt : RegNo := 4;
   let sel : BitVec 2 := 3;
   let s : State := withG up c [(4, 0x800)];
   let k : Nat := 0x20085800;
   let bs : List Byte := [0, 0, 0, 0];
   let e : Ecc := .clean;
   let a := (s.core c).gr rs;
   let x := s.core c;
   let f := s.found c;
   let pal := x.gr rt + BitVec.ofNat 32 (4 * (a.toNat / 256 ^ sel.toNat % 256));
   (s.Issues c (.palK c sel rd rs rt)) ∧ (pal.toNat % 4 = 0) ∧ (f.whereOf c pal.toNat 4 false = .mem k) ∧ (f.eccBytes k 4
     = (bs, e)) ∧ (e ≠ .uncorr)) ∧
  (let c : Ctx := .se 5;
   let rd : RegNo := 8;
   let rs : RegNo := 3;
   let rt : RegNo := 4;
   let sel : BitVec 2 := 3;
   let s : State := withG up c [(4, 0x801)];
   let a := (s.core c).gr rs;
   let x := s.core c;
   let pal := x.gr rt + BitVec.ofNat 32 (4 * (a.toNat / 256 ^ sel.toNat % 256));
   (s.Issues c (.palK c sel rd rs rt)) ∧ (pal.toNat % 4 ≠ 0)) ∧
  (let c : Ctx := .se 5;
   let rd : RegNo := 8;
   let rs : RegNo := 3;
   let s : State := withG up c [(3, 0xFE0)];
   let k : Nat := 0x20085FE0;
   let bs : List Byte := List.replicate 32 0;
   let e : Ecc := .clean;
   let a := (s.core c).gr rs;
   let f := s.found c;
   (s.Issues c (.tfetch c rd rs)) ∧ (a.toNat % 32 = 0) ∧ (f.whereOf c a.toNat 32 false = .mem k) ∧ (f.eccBytes k 32 =
     (bs, e)) ∧ (e ≠ .uncorr)) ∧
  (let c : Ctx := .se 5;
   let rd : RegNo := 8;
   let rs : RegNo := 3;
   let s : State := withG up c [(3, 0xFF0)];
   let a := (s.core c).gr rs;
   (s.Issues c (.tfetch c rd rs)) ∧ (a.toNat % 32 ≠ 0)) := by
  unfold State.Issues; refine ⟨?_, ?_, ?_, ?_, ?_, ?_⟩ <;> decide +kernel

theorem test_meets_SystemInstructions :
  (let c : Ctx := .cc;
   let s : State := up;
   let x := s.core c;
   (∀ i ∈ [.wait c, .eret c, .brk c], s.Issues c i) ∧ ((isCc c = true → x.priv = true)) ∧ (s.Issues .cc (.syscall .cc)) ∧
     (s.Issues .cc (.sysret .cc)) ∧ (s.cc.priv = true)) ∧
  (let s : State := up;
   let e : EngineNo := 5;
   let r : RegNo := 3;
   (s.Issues (.se e) (.complete (.se e) r))) ∧
  (let s : State := { up with cc := { up.cc with status := 0 } };
   let i := .sysret .cc;
   (i = .wait .cc ∨ i = .sysret .cc ∨ i = .eret .cc) ∧ (s.Issues .cc i) ∧ (s.cc.priv = false)) := by
  unfold State.Issues; refine ⟨?_, ?_, ?_⟩ <;> decide +kernel

theorem test_meets_SpecialRegisters :
  (let c : Ctx := .cc;
   let s : State := up;
   let rd : RegNo := 3;
   let sr : RegNo := 23;
   let x := s.core c;
   let rs : RegNo := 4;
   (s.Issues c (.mfs c rd sr)) ∧ ((isCc c = true → srPriv sr.toNat = true → x.priv = true)) ∧ (s.Issues c (.mts c sr rs))
     ∧ (isCc c = true) ∧ (x.priv = true) ∧ (bitOf x.status stLPE = false)) ∧
  (let s : State := up;
   let rs : RegNo := 4;
   let c : Ctx := .se 5;
   let sr : RegNo := 17;
   let x := s.core c;
   (s.Issues c (.mts c sr rs)) ∧ (isCc c = false) ∧ (bitOf x.status stLPE = false)) ∧
  (let s : State := withG up .cc [(4, 0x80)] 0x802;
   let sr : RegNo := 23;
   (s.Issues .cc (.mts .cc sr 4)) ∧ (s.cc.priv = true) ∧ (bitOf s.cc.status stLPE = true)) ∧
  (let c : Ctx := .cc;
   let rs : RegNo := 4;
   let s : State := { up with cc := { up.cc with status := 0 } };
   let x := s.core c;
   let sr : RegNo := 22;
   (s.Issues c (.mts c 1 rs)) ∧ (isCc c = true) ∧ (x.priv = false) ∧ (s.Issues .cc (.mts .cc sr rs)) ∧ (s.cc.priv =
     false) ∧ (13 ≤ sr.toNat) ∧ (sr.toNat ≤ 23)) ∧
  (let rd : RegNo := 3;
   let s : State := { up with cc := { up.cc with status := 0 } };
   let sr : RegNo := 22;
   (s.Issues .cc (.mfs .cc rd sr)) ∧ (s.cc.priv = false) ∧ (13 ≤ sr.toNat) ∧ (sr.toNat ≤ 22)) := by
  unfold State.Issues; refine ⟨?_, ?_, ?_, ?_, ?_⟩ <;> decide +kernel

theorem test_meets_ExceptionEntry :
  (let c : Ctx := .cc;
   let s : State := { up with cc := { up.cc with status := 6 } };
   let x := s.core c;
   (x.exl = true)) ∧
  (let e : EngineNo := 5;
   let c : Ctx := .se 5;
   let s : State := up.modCore c fun x => { x with status := 6 };
   let x := s.core c;
   (x.exl = true) ∧ (c = .se e)) ∧
  (let c : Ctx := .cc;
   let s : State := { up with cc := { up.cc with status := 6, ecause := 11 } };
   let x := s.core c;
   (x.exl = true) ∧ (c = .cc) ∧ (bitsOf x.ecause 0 8 = 11)) := by
  refine ⟨?_, ?_, ?_⟩ <;> decide +kernel

theorem test_meets_FetchExceptions :
  (let c : Ctx := .se 5;
   let s : State := up;
   let w : Word := 0xFFFFFFFF;
   let x := s.core c;
   (s.runnable c = true) ∧ (fetchable c x.pc = true) ∧ (s.flag F.DBG_CTRL_ATTACH = false) ∧ (decodeInsn c w = none)) ∧
  (let c : Ctx := .se 5;
   let e : EngineNo := 5;
   (c = .se e)) ∧
  (let c : Ctx := .se 5;
   let s : State := up.modCore c fun x => { x with pc := 0x2000 };
   let x := s.core c;
   (s.runnable c = true) ∧ (fetchable c x.pc = false)) ∧
  (let c : Ctx := .cc;
   (c = .cc)) := by
  refine ⟨?_, ?_, ?_, ?_⟩ <;> decide +kernel

theorem test_meets_RegisterAccess :
  (let s : State := up;
   let a : Nat := R.HEAD_EVT_STATUS 3;
   let rw : Nat := 0;
   let w1c : Nat := 0x3FFF;
   (s.pclkOn = true) ∧ ((a, rw, w1c) ∈ plainRegs)) ∧
  (let s : State := up;
   let m : Master := .core;
   let a : Nat := R.ETH_CNT_DROP 1;
   let rc : Nat := 0xFFFFFFFF;
   (s.pclkOn = true) ∧ ((a, rc) ∈ readClearRegs) ∧ (m ≠ .debug)) ∧
  (let s : State := up;
   let a : Nat := R.ETH_CNT_DROP 1;
   let rc : Nat := 0xFFFFFFFF;
   (s.pclkOn = true) ∧ ((a, rc) ∈ readClearRegs) ∧ (s.flag F.DBG_CTRL_SIDEFX = false)) ∧
  (let s : State := up;
   let a : Word := 0x40F00000;
   (s.pclkOn = true) ∧ (inBlock a.toNat = false)) := by
  refine ⟨?_, ?_, ?_, ?_⟩ <;> decide +kernel

theorem test_meets_Interrupts :
  (let b : Nat := 45;
   let s : State := (((up.on F.WDT_STATUS_WARN).onBit (F.ICU_PEND_BITS 1) 13).onBit (F.ICU_EN_BITS 1) 13).put
     (F.ICU_SRC_PRIO 45) 3;
   (s.candidate = some b) ∧ (s.pclkOn = true)) ∧
  (let n : IrqNo := 45;
   let s : State := (((up.on F.WDT_STATUS_WARN).onBit (F.ICU_PEND_BITS 1) 13).onBit (F.ICU_EN_BITS 1) 13).put
     (F.ICU_SRC_PRIO 45) 3;
   (n.val < 86) ∧ (s.irqLevel n = true) ∧ (s.filtPass n = true) ∧ (s.filtered n = false)) ∧
  (let n : IrqNo := 45;
   let s : State := (up.on F.WDT_STATUS_WARN).put (F.ICU_SRC_FILT 45) 15;
   (s.irqLevel n = true) ∧ (s.filtPass n = false ∨ s.filtered n = true)) ∧
  (let v : Word := 1;
   let s : State := (((up.on F.WDT_STATUS_WARN).onBit (F.ICU_PEND_BITS 1) 13).onBit (F.ICU_EN_BITS 1) 13).put
     (F.ICU_SRC_PRIO 45) 3;
   (s.pclkOn = true) ∧ (bitOf v 0 = true) ∧ (s.icuStack = [])) ∧
  (let n : IrqNo := 85;
   let s : State := up;
   (s.irqLevel n = false)) ∧
  (let v : Word := 1;
   let s : State := { up with icuStack := [(85, 3)] };
   let b : Nat := 85;
   let p : Nat := 3;
   let rest : List (Nat × Nat) := [];
   (s.pclkOn = true) ∧ (bitOf v 0 = true) ∧ (s.icuStack = (b, p) :: rest) ∧ (s.linesSettle.filtered b = false) ∧ (b < 128)) ∧
  (let v : Word := 1;
   let s : State := { up.on F.WDT_STATUS_WARN with icuStack := [(45, 3)], icuFilt := [(45, { level := true, out := true })] };
   let b : Nat := 45;
   (s.pclkOn = true) ∧ (bitOf v 0 = true) ∧ (s.icuStack = [(b, 3)]) ∧ (s.linesSettle.filtered b = true) ∧ (b < 86)) ∧
  (let b : Nat := 45;
   let s : State := { (((up.on F.WDT_STATUS_WARN).onBit (F.ICU_PEND_BITS 1) 13).onBit (F.ICU_EN_BITS 1) 13).put
     (F.ICU_SRC_PRIO 45) 3 with cc := { up.cc with status := 3 } }.putRaw 0x100534 [0x40, 0x20, 0x10, 0];
   (s.candidate = some b ∧ s.runnable .cc = true ∧ s.offered b = true ∧ s.cc.ie = true ∧ s.cc.exl = false ∧ (s.cc.vbase +
     BitVec.ofNat 32 (4 * (32 + b))).toNat = 0x100534 ∧ s.vectorKey .cc 0x100534 = some 0x100534 ∧ s.eccBytes 0x100534 4
     = ([0x40, 0x20, 0x10, 0], .clean) ∧ s.undef = [] ∧ romHandler 0x100534 0x102040 = false)) := by
  refine ⟨?_, ?_, ?_, ?_, ?_, ?_, ?_, ?_⟩ <;> decide +kernel

theorem test_meets_Timers :
  (let t : TimerNo := 7;
   let s : State := ((((up.wr (R.TIM_CNT 7) 5).wr (R.TIM_TOP 7) 5).on (F.TIM_CTRL_EN 7)).put (F.TIM_CCFG_MODE 7 3) 1);
   let n := t.val;
   let cnt := s.rd (R.TIM_CNT n);
   let top := s.rd (R.TIM_TOP n);
   let ch : BitVec 2 := 3;
   let c := ch.toNat;
   let next : Word := if cnt = top ∨ cnt = 0xFFFFFFFF then 0 else cnt + 1;
   let matched := s.get (F.TIM_CCFG_MODE n c) = 1 ∧ next = s.rd (R.TIM_CMP n c);
   (s.timRuns n = true) ∧ (cnt = top) ∧ matched ∧ (s.pclkOn = true)) ∧
  (let t : TimerNo := 7;
   let s : State := ((((((up.wr (R.TIM_CNT 7) 5).wr (R.TIM_TOP 7) 5).on (F.TIM_CTRL_EN 7)).on (F.TIM_CTRL_ONESHOT 7)).put
     (F.TIM_CCFG_MODE 7 3) 1).put (F.TIM_CTRL_STOPEV 2) 39).put (F.TIM_CTRL_STARTEV 1) 31;
   let n := t.val;
   (s.timRuns n = true) ∧ (s.rd (R.TIM_CNT n) = s.rd (R.TIM_TOP n)) ∧ (s.flag (F.TIM_CTRL_ONESHOT n) = true) ∧
     (s.get (F.TIM_CTRL_STOPEV 2) = 32 + n) ∧ (s.get (F.TIM_CTRL_STARTEV 1) = 4 * n + 3) ∧
     (s.get (F.TIM_CTRL_STOPEV 1) ≠ 32 + n ∧ s.get (F.TIM_CTRL_STOPEV 1) ≠ 4 * n + 3)) ∧
  (let m : Master := .core;
   let s : State := ((((up.wr (R.TIM_CNT 7) 5).wr (R.TIM_TOP 7) 5).on (F.TIM_CTRL_EN 7)).put (F.TIM_CCFG_MODE 7 3) 1);
   (s.pclkOn = true) ∧ (m ≠ .debug)) ∧
  (let t : TimerNo := 7;
   let s : State := up;
   let n := t.val;
   (s.timRuns n = false)) ∧
  (let t : TimerNo := 7;
   let ch : BitVec 2 := 3;
   let rising : Bool := true;
   let s : State := (((up.put (F.TIM_CCFG_MODE 7 3) 2).put (F.PIN_SEL_PIN 95) 10).on (F.PIN_SEL_EN 95)).put
     (F.PIN_CFG_ANA 10) 0;
   let n := t.val;
   let c := ch.toNat;
   let f := 64 + 4 * n + c;
   let p := s.get (F.PIN_SEL_PIN f);
   (s.fnSees f = true) ∧ ((s.setExt p rising).padLevel p = rising) ∧ (s.get (F.TIM_CCFG_MODE n c) = 2) ∧ (s.pclkOn =
     true)) := by
  refine ⟨?_, ?_, ?_, ?_, ?_⟩ <;> decide +kernel

theorem test_meets_Watchdog :
  (let v : Word := 0xC3;
   let s : State := ((((up.put F.WDT_WIN_LF 10).put F.WDT_COUNT_LF 10).put F.WDT_WARN_LF 11).put F.WDT_TIMEOUT_LF
     1024).on F.WDT_CTRL_EN;
   let en := s.flag F.WDT_CTRL_EN;
   let count := s.get F.WDT_COUNT_LF;
   (s.pclkOn = true) ∧ (en = true) ∧ (bitsOf v 0 8 = 0xC3) ∧ (s.get F.WDT_WIN_LF ≤ count) ∧ (s.wdtRuns = true) ∧
     (s.wdtSvc = false) ∧ (count + 1 = s.get F.WDT_WARN_LF) ∧ (count + 1 < s.get F.WDT_TIMEOUT_LF) ∧ (count + 1 < 2 ^
     F.WDT_COUNT_LF.width)) ∧
  (let v : Word := 0xC3;
   let s : State := (up.put F.WDT_WIN_LF 10).on F.WDT_CTRL_EN;
   let en := s.flag F.WDT_CTRL_EN;
   let count := s.get F.WDT_COUNT_LF;
   (s.pclkOn = true) ∧ (en = true) ∧ ((bitsOf v 0 8 ≠ 0xC3 ∨ count < s.get F.WDT_WIN_LF))) ∧
  (let s : State := { (((up.put F.WDT_COUNT_LF 1023).put F.WDT_TIMEOUT_LF 1024).put F.WDT_WARN_LF 0).on F.WDT_CTRL_EN with
     wdtSvc := true };
   (s.pclkOn = true) ∧ (s.wdtRuns = true) ∧ (s.wdtSvc = true) ∧ (s.get F.WDT_WARN_LF = 0) ∧ (s.get F.WDT_COUNT_LF ≠ 0)) ∧
  (let s : State := ((up.put F.WDT_COUNT_LF 1023).put F.WDT_TIMEOUT_LF 1024).on F.WDT_CTRL_EN;
   let count := s.get F.WDT_COUNT_LF;
   (s.pclkOn = true) ∧ (s.wdtRuns = true) ∧ (s.wdtSvc = false) ∧ (s.get F.WDT_TIMEOUT_LF ≤ count + 1)) ∧
  (let s : State := (up.put F.WDT_TIMEOUT_LF 1024).put F.WDT_WARN_LF 1023;
   let en := s.flag F.WDT_CTRL_EN;
   (s.pclkOn = true) ∧ (en = false) ∧ (s.get F.WDT_WIN_LF < s.get F.WDT_TIMEOUT_LF) ∧ (s.get F.WDT_WARN_LF < s.get
     F.WDT_TIMEOUT_LF) ∧ (1024 ≤ s.get F.WDT_TIMEOUT_LF)) ∧
  (let s : State := up.put F.WDT_TIMEOUT_LF 1023;
   let en := s.flag F.WDT_CTRL_EN;
   (s.pclkOn = true) ∧ (en = false) ∧ (s.get F.WDT_TIMEOUT_LF < 1024)) := by
  refine ⟨?_, ?_, ?_, ?_, ?_, ?_⟩ <;> decide +kernel

theorem test_meets_Converter :
  (let s : State := (up.on F.ADC_CTRL_EN).on F.ADC_STATUS_READY;
   let v : Word := 0x80000001;
   let busy := s.flag F.ADC_STATUS_BUSY;
   (s.pclkOn = true) ∧ (s.flag F.ADC_CTRL_EN = true) ∧ (bitOf v 0 = true) ∧ (busy = false) ∧ (s.flag F.ADC_STATUS_READY =
     true) ∧ ((s.flag F.DBG_FREEZE_ADC && s.cc.halted) = false) ∧ (bitOf v 31 = true)) ∧
  (let m : Master := .core;
   let s : State := (up.on F.ADC_CTRL_EN).on F.ADC_STATUS_READY;
   (s.pclkOn = true) ∧ (m ≠ .debug)) ∧
  (let v : Word := 0x80000001;
   let s : State := { (up.on F.ADC_STATUS_BUSY).on F.ADC_CTRL_EN with adcSlot := 7 };
   let busy := s.flag F.ADC_STATUS_BUSY;
   let slot := s.adcSlot;
   (s.pclkOn = true) ∧ (bitOf v 0 = true) ∧ (busy = true) ∧ (slot < 8) ∧ ((s.flag F.DBG_FREEZE_ADC && s.cc.halted) =
     false)) ∧
  (let v : Word := 0x80000001;
   let s : State := { up.on F.DBG_FREEZE_ADC with cc := { up.cc with halted := true } };
   (s.pclkOn = true) ∧ (bitOf v 0 = true) ∧ ((s.flag F.DBG_FREEZE_ADC && s.cc.halted) = true)) ∧
  (let v : Word := 0x80000001;
   let s : State := up;
   let busy := s.flag F.ADC_STATUS_BUSY;
   (s.pclkOn = true) ∧ (bitOf v 0 = true) ∧ (busy = false) ∧ (s.flag F.ADC_STATUS_READY = false)) ∧
  (let s : State := (up.on F.ADC_CTRL_EN).on F.ADC_STATUS_READY;
   let v : Word := 0;
   (s.pclkOn = true) ∧ (bitOf v 31 = false)) := by
  refine ⟨?_, ?_, ?_, ?_, ?_, ?_⟩ <;> decide +kernel

theorem test_meets_RasterEvents :
  (let h : Head := 1;
   let s : State := hd .running (-4) (-1);
   let x := s.head h;
   (s.Alone h) ∧ (x.line + 1 < 0)) ∧
  (let h : Head := 1;
   let s : State := hd .running (-1) (-1);
   let x := s.head h;
   (s.Alone h) ∧ (x.line + 1 = 0) ∧ (0 < x.tim.vactive) ∧ ((∀ l, l < 8 → bitsOf (s.layer h l).act.srcfmt 30 2 ≠ 1)) ∧
     (∀ l, l < 8 → (s.layer h l).next.bind (·.held) = none)) ∧
  (let h : Head := 1;
   let s : State := (hd .running 15 14).modHead 1 fun x => { x with slots := [(0, 15), (0, 23), (3, 16)] };
   let x := s.head h;
   let tk : Task := { mb0 := 0x141C0017 };
   (s.Alone h) ∧ (0 ≤ x.line) ∧ (x.endedLine < x.line) ∧ tk.headNo = h.val ∧ tk.slot = x.line.toNat % 8 ∧
     tk.line = x.line.toNat + 8 ∧
     (∀ d, d ∈ x.slots → x.line < (d.2 : Int) → d.1 = tk.ring → d.2 % 8 = tk.slot → d.2 = tk.line)) ∧
  (let h : Head := 1;
   let s : State := hd .running 15 15;
   let x := s.head h;
   (s.Alone h) ∧ (s.Steady h) ∧ (x.line + 1 = x.tim.vactive) ∧ (x.line ≤ x.endedLine)) := by
  unfold State.Alone State.Steady; refine ⟨?_, ?_, ?_, ?_⟩ <;> decide +kernel

theorem test_meets_LineTask :
  (let h : Head := 1;
   let r : Nat := 3;
   let line : Nat := 2047;
   let x : UnitSt := { engine := 5, use := 0xFFFF, slot := some 3 };
   let s : State := (hd .running 0 0).on (F.ARRAY_ROOT_VALID 7) |>.put (F.ARRAY_ROOT_UNIT 7) 1;
   (r < 4 ∧ line < 2048 ∧ s.flag (F.ARRAY_ROOT_VALID (4 * h.val + r)) = true ∧ s.frzHeld h r = false ∧ s.unit?
     (s.ringRoot h r) = some x ∧ x.policy = 0 ∧ x.queue.length < 8) ∧ (r < 4)) := by
  decide +kernel

theorem test_meets_HeadStartAndStop :
  (let h : Head := 1;
   let v : Word := 4;
   let s : State := regsT up;
   let ph := (s.head h).phase;
   let on := v ||| 0x80000000;
   let s1 := s.withCtrl h on;
   (s.pclkOn = true) ∧ (ph = .stopped) ∧ (s1.isClone h = false)) ∧
  (let h : Head := 1;
   let s : State := hd .locking 0 0;
   let ph := (s.head h).phase;
   let starting := ph = .locking ∨ ph = .training ∨ ph = .ready;
   (ph = .locking) ∧ (s.pclkOn = true) ∧ starting) ∧
  (let h : Head := 1;
   let s : State := hd .training 0 0;
   let ph := (s.head h).phase;
   (ph = .training)) ∧
  (let h : Head := 1;
   let s : State := (hd .training 0 0).modHead 1 (fun x => { x with fastTrain := true }) |>.put (F.HEAD_CTRL_PHY 1) 2;
   ((s.head h).phase = .training) ∧ ((s.head h).fastTrain = true) ∧ (s.get (F.HEAD_CTRL_PHY h) = 2)) ∧
  (let h : Head := 1;
   let s : State := hd .ready 0 0;
   let ph := (s.head h).phase;
   (ph = .ready) ∧ (s.rasterMode = true) ∧ (s.isClone h = false) ∧ (s.followers h = []) ∧ (s.Steady h) ∧ (s.modeNow ≠ 5) ∧
     ((s.head h).blAct = none)) ∧
  (let h : Head := 1;
   let s : State := hd .running 0 0;
   let ph := (s.head h).phase;
   (s.pclkOn = true) ∧ (ph = .running) ∧ (s.isClone h = false) ∧ (s.prof.target = none) ∧ (s.mode.exitTo = none) ∧
     (((0x80000000 : Word) ^^^ s.rd (R.HEAD_CTRL h)) &&& 0x7000000C = 0)) ∧
  (let h : Head := 1;
   let s : State := hd .running 0 0;
   (s.pclkOn = true) ∧ ((s.head h).phase = .running) ∧ (((0x40000000 : Word) ^^^ s.rd (R.HEAD_CTRL h)) &&& 0x7000000C ≠ 0)) ∧
  (let h : Head := 1;
   let s : State := (hd .running 15 15).on (F.HEAD_STATUS_STOPPING 1);
   (s.Alone h) ∧ (s.prof.target = none) ∧ (s.mode.exitTo = none) ∧ ((s.head h).line + 1 = (s.head h).tim.vactive) ∧
     ((s.head h).line ≤ (s.head h).endedLine) ∧ (s.flag
     (F.HEAD_STATUS_STOPPING h) = true)) ∧
  (let h : Head := 1;
   let c : Nat := 3;
   let s : State := (State.beam (hd .running 0 0) 3 .training 0 0).on (F.HEAD_CTRL_CLONE 3) |>.put (F.HEAD_CTRL_CLSRC 3) 1;
   let ph := (s.head h).phase;
   (ph = .running ∧ s.isClone h = false ∧ c ∈ s.followers h)) ∧
  (let h : Head := 1;
   let s : State := (hd .running 0 0).put (F.HEAD_CTRL_PHY 1) 2;
   let ph := (s.head h).phase;
   (ph = .running) ∧ (s.get (F.HEAD_CTRL_PHY h) = 2)) := by
  unfold State.Alone State.Steady; refine ⟨?_, ?_, ?_, ?_, ?_, ?_, ?_, ?_, ?_, ?_⟩ <;> decide +kernel

theorem test_meets_HeadSettings :
  (let h : Head := 1;
   let s : State := regsT (hd .running 0 0);
   let r : BitVec 2 := 0;
   let v : Word := 0x03200029;
   let a := R.HEAD_HTIM_A h + 4 * r.toNat;
   let s1 := { s with resp := .none }.maskWrite a v;
   (s.pclkOn = true) ∧ (s.running h = true) ∧ ((s1.timingRegs h).hactive = (s.timingRegs h).hactive) ∧ ((s1.timingRegs
     h).vactive = (s.timingRegs h).vactive) ∧ (s.limitFail h (s1.timingRegs h) (s.rd (R.HEAD_CTRL h)) = 0)) ∧
  (let h : Head := 1;
   let s : State := regsT (hd .running 0 0);
   let r : BitVec 2 := 0;
   let v : Word := 0x00280322;
   let a := R.HEAD_HTIM_A h + 4 * r.toNat;
   let s1 := { s with resp := .none }.maskWrite a v;
   (s.pclkOn = true) ∧ (s.running h = true) ∧ ((s1.timingRegs h).hactive ≠ (s.timingRegs h).hactive)) ∧
  (let h : Head := 1;
   let s : State := hd .running 0 0;
   (s.pclkOn = true) ∧ (s.running h = true)) ∧
  (let h : Head := 1;
   let s : State := up;
   let v : Word := 9;
   let l := v.toNat % 16;
   (s.pclkOn = true) ∧ (s.running h = false) ∧ ((l = 0 ∨ 8 < l ∨ (s.timingRegs h).v < l + 1))) ∧
  (let h : Head := 1;
   let s : State := regsT up;
   let v : Word := 8;
   let l := v.toNat % 16;
   (s.pclkOn = true) ∧ (1 ≤ l) ∧ (l ≤ 8) ∧ (l + 1 ≤ (s.timingRegs h).v)) ∧
  (let s : State := up;
   let v : Word := 500;
   let n := v.toNat % 512;
   (s.pclkOn = true) ∧ (50 ≤ n) ∧ (n ≤ 500)) ∧
  (let s : State := up;
   let v : Word := 49;
   let n := v.toNat % 512;
   (s.pclkOn = true) ∧ ((n < 50 ∨ 500 < n))) := by
  refine ⟨?_, ?_, ?_, ?_, ?_, ?_, ?_⟩ <;> decide +kernel

theorem test_meets_Flips :
  (let h : Head := 1;
   let l : LayerNo := 4;
   let v : Word := 0x30000803;
   let s : State := up.put (F.HEAD_L_STRIDE_STRIDE 1 4) 0x400;
   let nx := s.nextSet h l;
   let cs := flipCauses nx (v.toNat / 256 % 64);
   (s.pclkOn = true) ∧ (bitOf v 0 = true) ∧ (cs = [])) ∧
  (let h : Head := 1;
   let l : LayerNo := 4;
   let v : Word := 0x30000803;
   let s : State := up.put (F.HEAD_L_SRCFMT_KIND 1 4) 3;
   let nx := s.nextSet h l;
   let cs := flipCauses nx (v.toNat / 256 % 64);
   (s.pclkOn = true) ∧ (bitOf v 0 = true) ∧ (cs ≠ [])) ∧
  (let h : Head := 1;
   let l : LayerNo := 4;
   let c := { base := 7 };
   let s : State := up.modLayer 1 4 fun y => { y with pend := some { base := 7 } };
   let y := s.layer h l;
   (y.pend = some c) ∧ ((y.fence = none ∨ s.flag (F.HEAD_L_FLIPSTAT_SIGNALLED h l) = true))) ∧
  (let h : Head := 1;
   let l : LayerNo := 4;
   let s : State := ((hd .running 0 0).modLayer 1 4 fun y => { y with
     pend := some {}, fence := some ⟨8, 0⟩, timeout := 3 }).put (F.HEAD_L_FLIPSTAT_WAITED 1 4) 2;
   let y := s.layer h l;
   (s.running h = true) ∧ (s.frozen h = false) ∧ (y.pend.isSome = true) ∧ (y.fence.isSome = true) ∧ (s.flag
     (F.HEAD_L_FLIPSTAT_SIGNALLED h l) = false) ∧ (y.timeout ≠ 0) ∧ (s.get (F.HEAD_L_FLIPSTAT_WAITED h l) + 1 =
     y.timeout)) := by
  refine ⟨?_, ?_, ?_, ?_⟩ <;> decide +kernel

theorem test_meets_BeamLists :
  (let h : Head := 1;
   let s : State := up;
   let x := s.head h;
   let b : Bool := false;
   let i : BitVec 12 := 4095;
   (s.pclkOn = true) ∧ (x.blCheck = none) ∧ (i.toNat < 4096) ∧ (s.bankBusy h (if b then 1 else 0) = false)) ∧
  (let h : Head := 1;
   let b : Bool := false;
   let s : State := up.modHead 1 fun x => { x with blCheck := some (0, 1) };
   let x := s.head h;
   (s.pclkOn = true) ∧ (x.blCheck.isSome = true) ∧ (s.bankBusy h (if b then 1 else 0) = true)) ∧
  (let h : Head := 1;
   let s : State := up.modHead 1 fun x => { x with blCheck := some (1, 1025) };
   let k : Nat := 1;
   let n : Nat := 1025;
   let x := s.head h;
   (x.blCheck = some (k, n)) ∧ (1024 < n)) ∧
  (let h : Head := 1;
   let s : State := up.modHead 1 fun x => { x with blCheck := some (1, 1) };
   let k : Nat := 1;
   let n : Nat := 1;
   let x := s.head h;
   (x.blCheck = some (k, n)) ∧ (n ≤ 1024) ∧ (k < 2)) ∧
  (let h : Head := 1;
   let s : State := ((hd .running (-3) (-1)).putRaw (blKey 1 0 0) (leBytes 4 0xFFFDFFFB ++ leBytes 4 (R.HEAD_L_POS 1 4)
     ++ leBytes 8 0x000050006)).modHead 1 fun x => { x with blAct := some (0, 1) };
   let x := s.head h;
   (s.running h = true ∧ s.frozen h = false ∧ ((s.blNext h).any fun n => !n.2.1.2 && decide (n.2.1.1.line = x.line ∧
     x.line < 0 ∧ -(x.vblank : Int) ≤ n.2.1.1.line ∧ -(x.tim.hblank : Int) ≤ n.2.1.1.hpos ∧ n.2.1.1.hpos < (x.tim.hactive
     : Int) ∧ n.1 < 1024 ∧ n.2.1.1.addr = R.HEAD_L_POS h 4)) = true)) ∧
  (let s : State := { up with aud := { up.aud with queue := [(BitVec.ofNat 32 R.AUD_IE, 1)] } };
   let e : Word × Word := (BitVec.ofNat 32 R.AUD_IE, 1);
   let q : List (Word × Word) := [];
   (s.pclkOn = true) ∧ (s.aud.queue = e :: q) ∧ (e.1 = BitVec.ofNat 32 R.AUD_IE)) := by
  refine ⟨?_, ?_, ?_, ?_, ?_, ?_⟩ <;> decide +kernel

theorem test_meets_MirageCheck :
  (let h : Head := 1;
   let n : WindowNo := 3;
   let s : State := (hd .running 9 8).modHead 1 fun x => x.setWin 3 { ctrl := 0xE0000000, rectB := 0x00080008, expect :=
     5 };
   let x := s.head h;
   let w := x.win n;
   let y1 : Int := bitsOf w.rectB 16 12;
   (s.running h = true) ∧ (s.isClone h = false) ∧ (w.live = true) ∧ (w.final = false) ∧ (x.framing = false) ∧ (y1 ≤
     x.line) ∧ (x.old.pending n = false) ∧ (x.old.unsynced = false) ∧ (bitOf w.ctrl 28 = false) ∧ (bitOf w.ctrl 20 = false) ∧
       ((bitOf w.ctrl 30 = true ∧ x.reduced = false ∨
     bitOf w.ctrl 29 = true)) ∧ (s.pclkOn = true) ∧ ((s.dvRestart h).dvOk h = false)) ∧
  (let h : Head := 1;
   let n : WindowNo := 3;
   let s : State := (hd .running 9 8).modHead 1 fun x => { x with old := { wins := [(3, { ctrl := 0xC0000000 })] } };
   let x := s.head h;
   let wo := x.old.win n;
   (x.old.pending n = true) ∧ (bitOf wo.ctrl 28 = false) ∧ (bitOf wo.ctrl 20 = false) ∧ (bitOf wo.ctrl 30 = true) ∧
     (x.old.reduced = false)) ∧
  (let h : Head := 1;
   let v : Word := 1;
   let s : State := up.on (F.HEAD_CHK_STATUS_RFGVIEW 1);
   (s.pclkOn = true) ∧ (bitOf v 0 = true) ∧ (s.modeNow ≠ 5) ∧ (s.inRefugeView h = true)) ∧
  (let h : Head := 1;
   let s : State := ((hd .running 9 8).modHead 1 fun x => x.setWin 3 { ctrl := 0xE0000000, rectB := 0x00080008, expect :=
     5 }).on (F.HEAD_CHK_CTRL_DVEN 1) |>.put (F.HEAD_W_RESULT_AGE 1 3) 0;
   (s.pclkOn = true) ∧ ((s.dvRestart h).dvOk h = true)) := by
  refine ⟨?_, ?_, ?_, ?_⟩ <;> decide +kernel

theorem test_meets_UnitsAndTasks :
  (let u : UnitId := 1;
   let s : State := { up with prof := { up.prof with bound := [⟨1, 1, 2, false, false⟩] } };
   let x : UnitSt := { engine := 5, use := 0xFFFF, slot := some 3 };
   let v : Word := 1;
   let sl : Nat := 3;
   let live := s.isLiveRoot u.toNat;
   let busy := s.flag F.ARRAY_UNIT_CMD_STATUS_BUSY;
   let w : Nat := 1;
   (s.unit? u.toNat = some x) ∧ (s.pclkOn = true) ∧ (x.slot = some sl) ∧ (sl < 1024) ∧ (s.unitOfSlot sl = some u.toNat) ∧
     (live = false) ∧ (x.policy = 0) ∧ (bitOf v 0 = true) ∧ (x.queue.length < 8) ∧ (busy = false) ∧ (x.parent = 0) ∧
     (s.isLiveRoot u.toNat = false ∧ x.parent = 0 ∧ w ∈ s.family u.toNat ∧ s.unit? w = some x ∧ x.policy = 0 ∧
     s.startable w x = true)) ∧
  (let u : UnitId := 1;
   let v : Word := 1;
   let x : UnitSt := { engine := 5, use := 0xFFFF };
   let s : State := { up with units := [(1, some x)] };
   (s.unit? u.toNat = some x) ∧ (s.pclkOn = true) ∧ (x.slot = none) ∧ (s.isLiveRoot u.toNat = false) ∧ (x.policy = 0) ∧
     (bitOf v 0 = true) ∧ (x.queue.length < 8)) ∧
  (let u : UnitId := 1;
   let v : Word := 1;
   let sl : Nat := 3;
   let x : UnitSt := { engine := 5, slot := some 3, queue := List.replicate 8 {} };
   let s : State := { up with units := [(1, some x)] };
   let live := s.isLiveRoot u.toNat;
   (s.unit? u.toNat = some x) ∧ (s.pclkOn = true) ∧ (x.slot = some sl) ∧ (sl < 1024) ∧ (s.unitOfSlot sl = some u.toNat) ∧
     (live = false) ∧ (x.policy = 0) ∧ (bitOf v 0 = true) ∧ (8 ≤ x.queue.length)) ∧
  (let ch : BitVec 6 := 0;
   let u : UnitId := 2;
   let c : Nat := 1;
   let y : UnitSt := { engine := 5, slot := some 3, parent := 2, queue := List.replicate 7 {} };
   let x : UnitSt := { policy := 1, nchild := 1, queue := [{ togo := [0] }] };
   let s : State := { up with units := [(1, some y), (2, some x)] };
   let k : Task := { togo := [0] };
   (s.unit? u.toNat = some x) ∧ (s.childAt u.toNat ch.toNat = some c) ∧ (c ≠ u.toNat) ∧ (s.unit? c = some y) ∧ (y.policy
     = 0) ∧ (x.queue.find? (fun q => q.togo.contains ch.toNat) = some k) ∧ (y.x0 < 65536) ∧ (y.queue.length < 8)) ∧
  (let ch : BitVec 6 := 0;
   let u : UnitId := 2;
   let c : Nat := 1;
   let y : UnitSt := { engine := 5, slot := some 3, parent := 2, queue := List.replicate 8 {} };
   let x : UnitSt := { policy := 1, nchild := 1, queue := [{ togo := [0] }] };
   let s : State := { up with units := [(1, some y), (2, some x)] };
   let k : Task := { togo := [0] };
   (s.unit? u.toNat = some x) ∧ (s.childAt u.toNat ch.toNat = some c) ∧ (c ≠ u.toNat) ∧ (s.unit? c = some y) ∧ (y.policy
     = 0) ∧ (x.queue.find? (fun q => q.togo.contains ch.toNat) = some k) ∧ (8 ≤ y.queue.length)) ∧
  (let u : UnitId := 1;
   let e : EngineNo := 5;
   let x : UnitSt := { engine := 5, slot := some 3, queue := [{ mb0 := 0x20000000 }] };
   let s : State := { up with units := [(1, some x)] };
   let k : Task := { mb0 := 0x20000000 };
   let q : List Task := [];
   (s.unit? u.toNat = some x) ∧ (s.unitOfEngine e.val = some u.toNat) ∧ (x.queue = k :: q) ∧ (k.src = .outside)) ∧
  (let m : Master := .core;
   let u : UnitId := 1;
   let x : UnitSt := { engine := 5, use := 0xFFFF, slot := some 3 };
   let s : State := (up.on (F.ARRAY_ROOT_VALID 4)).put (F.ARRAY_ROOT_UNIT 4) 1;
   let c := .unitPark m u;
   let live := s.isLiveRoot u.toNat;
   let busy := s.flag F.ARRAY_UNIT_CMD_STATUS_BUSY;
   (s.unit? u.toNat = some x) ∧ (s.pclkOn = true) ∧ (busy = false) ∧ (x.parent = 0) ∧ (live = true) ∧ (c = Instr.unitPark
     m u ∨ c = Instr.unitRestart m u)) ∧
  (let m : Master := .core;
   let u : UnitId := 1;
   let x : UnitSt := { engine := 5, use := 0xFFFF, slot := some 3 };
   let s : State := up.on F.ARRAY_UNIT_CMD_STATUS_BUSY;
   let c := .unitRestart m u;
   let busy := s.flag F.ARRAY_UNIT_CMD_STATUS_BUSY;
   (s.unit? u.toNat = some x) ∧ (s.pclkOn = true) ∧ (busy = true) ∧ (c = Instr.unitPark m u ∨ c = Instr.unitRestart m u)) := by
  refine ⟨?_, ?_, ?_, ?_, ?_, ?_, ?_, ?_⟩ <;> decide +kernel

theorem test_meets_BootToSlot :
  (let s : State := State.reset.wr R.PIN_BANK_STATUS 0x40;
   let ph := s.boot.phase;
   s.BootFree ∧ (ph = .inReset) ∧ (s.bankUp 3 = true)) ∧
  (let s : State := State.reset;
   let ph := s.boot.phase;
   s.BootFree ∧ (ph = .inReset) ∧ (s.bankUp 3 = false)) ∧
  (let w : Word := 0x100000;
   let s : State := { State.reset with
     boot := { phase := .eclkLocked, sel := 1 }, tap := { State.reset.tap with run := some (true, 7, w) } };
   let ph := s.boot.phase;
   s.BootFree ∧ (ph = .eclkLocked) ∧ (s.boot.pclkFail = false) ∧ (s.boot.sel < 2) ∧ (s.tap.run = some (true, 7, w))) ∧
  (let s : State := { State.reset with boot := { phase := .started } };
   let ph := s.boot.phase;
   s.BootFree ∧ (ph = .started) ∧ (s.boot.eclkFail = false)) ∧
  (let sel : BitVec 2 := 3;
   let s : State := { State.reset with boot := { phase := .eclkLocked, sel := 1 } };
   let ph := s.boot.phase;
   s.BootFree ∧ (ph = .eclkLocked) ∧ (s.boot.pclkFail = false) ∧ (s.tap.run = none) ∧ (s.boot.sel < 2)) ∧
  (let sel : BitVec 2 := 3;
   let s : State := { State.reset with boot := { phase := .eclkLocked, sel := 3 } };
   let ph := s.boot.phase;
   s.BootFree ∧ (ph = .eclkLocked) ∧ (s.boot.pclkFail = false) ∧ (s.tap.run = none) ∧ (s.boot.sel = 3)) ∧
  (let s : State := { State.reset with boot := { phase := .started, eclkFail := true } };
   let ph := s.boot.phase;
   s.BootFree ∧ (s.boot.eclkFail = true) ∧ (ph = .started)) ∧
  (let s : State := { State.reset with boot := { phase := .streaming } };
   let ph := s.boot.phase;
   s.BootFree ∧ (ph = .streaming) ∧ (s.cc.halted = false) ∧ (s.boot.slot = 0) ∧ (s.boot.tried = 0)) ∧
  (let s : State := { State.reset with boot := { phase := .streaming, slot := 1 } };
   let ph := s.boot.phase;
   s.BootFree ∧ (ph = .streaming) ∧ (s.cc.halted = false) ∧ (s.boot.slot = 1) ∧ (s.boot.tried = 0)) := by
  unfold State.BootFree; refine ⟨?_, ?_, ?_, ?_, ?_, ?_, ?_, ?_, ?_⟩ <;> decide +kernel

set_option maxRecDepth 100000 in
theorem test_meets_BootToPicture :
  (let r : Nat := 2;
   let s : State := trying .streaming [];
   let ph := s.boot.phase;
   (s.cc.halted = false) ∧ (ph = .streaming) ∧ (s.boot.slot = 0) ∧ (s.boot.tried = 0) ∧ (s.slotImg 0 = .inl r) ∧ (r < 16)) ∧
  (let s : State := trying .streaming (mkImg true secs 0 0);
   (s.cc.halted = false ∧ s.boot.phase = .streaming ∧ imgIs s (fun m => m.hdr.usesDram) = true ∧ s.boot.dramAnswered =
     false)) ∧
  (let s : State := trying .streaming (mkImg false secs 1 0);
   (s.cc.halted = false ∧ s.boot.phase = .streaming ∧ s.boot.slot = 0 ∧ s.boot.tried = 0 ∧ imgIs s (fun m =>
     !m.hdr.usesDram && !m.crcOk) = true)) ∧
  (let s : State := trying .streaming (mkImg false secs 0 1);
   (imgIs s (fun m => !m.hdr.usesDram && m.crcOk && !m.sectionsOk) = true)) ∧
  (let s : State := { trying .streaming (mkImg false secs 0 0) with fuses := { keyv := true, authreq := true } };
   (imgIs s (fun m => !m.hdr.usesDram && m.crcOk && m.sectionsOk && !(m.authOk s.fuses).1) = true)) ∧
  (let s : State := trying .streaming (mkImg false secs.tail 0 0);
   (imgIs s (fun m => !m.hdr.usesDram && m.crcOk && m.sectionsOk && (m.authOk s.fuses).1 && !m.structureOk) = true)) ∧
  (let s : State := trying .streaming (mkImg false secs 0 0);
   (imgIs s (fun m => !m.hdr.usesDram && m.crcOk && m.sectionsOk && (m.authOk s.fuses).1 && m.structureOk) = true)) ∧
  (let s : State := trying .training (mkImg true secs 0 0);
   (s.boot.phase = .training ∧ s.boot.dramAnswered = false ∧ imgIs s (fun m => m.hdr.usesDram) = true)) ∧
  (let s : State := trying .heads [];
   let ph := s.boot.phase;
   (s.cc.halted = false) ∧ (ph = .heads) ∧ ((∀ h, h < 4 → (s.head h).phase ≠ .locking ∧ (s.head h).phase ≠ .training)) ∧
     (s.flag F.CFG_STATUS_DFLT = false) ∧ (s.flag F.SYS_REFUGE_CAUSE_SPARE = false) ∧ (s.leanActive = false)) ∧
  (let s : State := (trying .heads []).on F.CFG_STATUS_DFLT;
   let ph := s.boot.phase;
   (s.cc.halted = false) ∧ (ph = .heads) ∧ ((∀ h, h < 4 → (s.head h).phase ≠ .locking ∧ (s.head h).phase ≠ .training)) ∧
     ((s.flag F.CFG_STATUS_DFLT = true ∨ s.flag F.SYS_REFUGE_CAUSE_SPARE = true))) ∧
  (let s : State := { (trying .heads []).on F.SYS_STATUS_SUPWARN with
     prof := { State.reset.prof with leanActive := true } };
   (s.cc.halted = false) ∧ (s.boot.phase = .heads) ∧ (∀ h, h < 4 → (s.head h).phase ≠ .locking ∧ (s.head h).phase ≠ .training) ∧
     (s.flag F.CFG_STATUS_DFLT = false) ∧ (s.flag F.SYS_REFUGE_CAUSE_SPARE = false) ∧ (s.leanActive = true) ∧
     (s.prof.leanActive = true ∧ s.prof.target = none)) ∧
  (let s : State := (trying .heads []).on F.SYS_STATUS_SUPWARN;
   (s.cc.halted = false) ∧ (s.boot.phase = .heads) ∧ (∀ h, h < 4 → (s.head h).phase ≠ .locking ∧ (s.head h).phase ≠ .training) ∧
     (s.flag F.CFG_STATUS_DFLT = false) ∧ (s.flag F.SYS_REFUGE_CAUSE_SPARE = false) ∧ (s.leanActive = true) ∧
     (s.prof.leanActive = false)) ∧
  (let s : State := trying .picture [];
   let ph := s.boot.phase;
   (s.cc.halted = false) ∧ (ph = .picture)) := by
  refine ⟨?_, ?_, ?_, ?_, ?_, ?_, ?_, ?_, ?_, ?_, ?_, ?_, ?_⟩ <;> decide +kernel

theorem test_meets_ProfileSwitch :
  (let s : State := up.on F.CFG_PROFILE_STATUS_BUSY;
   let busy := s.flag F.CFG_PROFILE_STATUS_BUSY;
   (s.pclkOn = true) ∧ (busy = true)) ∧
  (let v : Word := 1;
   let s : State := up;
   let p := v.toNat % 8;
   let busy := s.flag F.CFG_PROFILE_STATUS_BUSY;
   (s.pclkOn = true) ∧ (busy = false) ∧ (s.flag (F.CFG_PROF_INFO_VALID p) = false)) ∧
  (let v : Word := 0;
   let s : State := up.on (F.CFG_PROF_INFO_VALID 0);
   let p := v.toNat % 8;
   let busy := s.flag F.CFG_PROFILE_STATUS_BUSY;
   (s.pclkOn = true) ∧ (busy = false) ∧ (s.flag (F.CFG_PROF_INFO_VALID p) = true) ∧ (p = s.get
     F.CFG_PROFILE_STATUS_ACTIVE)) ∧
  (let v : Word := 7;
   let s : State := up.on (F.CFG_PROF_INFO_VALID 7);
   let p := v.toNat % 8;
   let busy := s.flag F.CFG_PROFILE_STATUS_BUSY;
   (s.pclkOn = true) ∧ (busy = false) ∧ (s.prof.target = none) ∧ (s.flag (F.CFG_PROF_INFO_VALID p) = true) ∧ (p ≠ s.get
     F.CFG_PROFILE_STATUS_ACTIVE)) ∧
  (let s : State := { up with prof := { up.prof with target := some (1, true) } };
   let q : Nat := 1;
   let lean := true;
   (s.pclkOn = true) ∧ (s.flashBusy = false) ∧ (s.prof.target = some (q, lean)) ∧ (s.prof.plan = none) ∧
     (s.readPlan q lean = none) ∧
     (s.prof.forMode = none)) ∧
  (let s : State := { hd .running 0 0 with
    prof := { up.prof with
    target := some (1, false), heads := 2 }, boot := { phase := .done, sections := [(8, 1, 0, 16, (crc32c (ws [0, 0, 0,
    0])).toNat)] }, flash := (List.range 16).map fun i => (i, 0) };
   let q : Nat := 1;
   let lean := false;
   (s.pclkOn = true ∧ s.flashBusy = false ∧ s.prof.target = some (q, lean) ∧ s.prof.plan = none ∧
     (s.readPlan q lean).isSome = true ∧ (∃ h, h <
     4 ∧ natBit s.prof.heads h = true ∧ h ∉ s.prof.switched) ∧ (∀ h, h < 4 → natBit s.prof.heads h = true → s.running h = true))) ∧
  (let u : UnitId := 1;
   let b : Bind := ⟨1, 1, 2, false, false⟩;
   let s : State := { hd .running 0 0 with
     prof := { up.prof with
     reload := [b] }, boot := { phase := .done, sections := [(2, 2, 0, 8, (crc32c (ws [1, 7])).toNat)] }, flash :=
     (List.range 8).zip (ws [1, 7]) };
   let code : List Word := [7];
   (s.pclkOn = true ∧ s.flashBusy = false ∧
     s.prof.reload.find? (fun b => b.unit == u.toNat && !s.prof.reloaded.contains u.toNat) = some b ∧
     ((s.readSection 2 b.program).bind readProgram) = some code ∧ s.running b.head = true)) ∧
  (let u : UnitId := 1;
   let b : Bind := ⟨1, 1, 2, false, false⟩;
   let c : Bind := ⟨2, 1, 2, false, false⟩;
   let s : State := { up with prof := { up.prof with reload := [b, c] } };
   (s.pclkOn = true ∧ s.flashBusy = false ∧
     s.prof.reload.find? (fun b => b.unit == u.toNat && !s.prof.reloaded.contains u.toNat) = some b ∧
     ((s.readSection 2 b.program).bind readProgram) = none ∧ c ∈ s.prof.reload ∧ c ≠ b)) ∧
  (let s : State := up.on F.QSPI_STATUS_BUSY;
   (s.pclkOn = true) ∧ (s.flashBusy = true)) := by
  refine ⟨?_, ?_, ?_, ?_, ?_, ?_, ?_, ?_, ?_⟩ <;> decide +kernel

theorem test_meets_LeanTriggers :
  (let s : State := inMode 2;
   let cause : BitVec 8 := 0x80;
   let full := s.modeNow = 2 ∧ s.flag F.SYS_MODE_TRANS = false ∧ (s.prof.leanActive = false ∨ s.prof.target.isSome =
     true);
   full ∧ (s.pclkOn = true) ∧ (cause ≠ 0) ∧ (s.flag F.SYS_STATUS_SUPWARN = false)) ∧
  (let s : State := (((inMode 5).on F.SYS_MODE_TRANS).put F.SYS_MODE_TARGET 2);
   let cause : BitVec 8 := 0x80;
   (s.modeNow = 5) ∧ (s.flag F.SYS_MODE_TRANS = true) ∧ (s.get F.SYS_MODE_TARGET = 2) ∧ (s.mode.raise = none) ∧ (s.pclkOn =
     true) ∧ (cause ≠ 0)) ∧
  (let s : State := inMode 2;
   let v : Word := 0x0001785A;
   let lean := bitsOf v 0 8;
   let crit := bitsOf v 8 8;
   let lawful := 85 ≤ lean ∧ lean ≤ 120 ∧ lean + 5 ≤ crit ∧ crit ≤ 125 ∧ 1 ≤ bitsOf v 16 4;
   (s.pclkOn = true) ∧ lawful) ∧
  (let s : State := (inMode 2).on F.SYS_STATUS_SUPWARN;
   (s.flag F.SYS_STATUS_SUPWARN = true)) ∧
  (let s : State := ((inMode 2).put F.SYS_THERM_LEAN 85).put F.SYS_THERM_CRIT 125;
   let x : BitVec 16 := 341;
   let full := s.modeNow = 2 ∧ s.flag F.SYS_MODE_TRANS = false ∧ (s.prof.leanActive = false ∨ s.prof.target.isSome =
     true);
   let measured := s.mode.thermHold = false ∧ s.boot.phase ≠ .inReset ∧ s.modeNow ≠ 4 ∧ s.modeNow ≠ 0;
   measured ∧ full ∧ (s.flag F.SYS_STATUS_THERMLEAN = false) ∧ (x.toInt < 540) ∧ (4 * (s.get F.SYS_THERM_LEAN : Int) <
     x.toInt) ∧ (x.toInt ≤ 4 * ((s.get F.SYS_THERM_CRIT : Int) - s.get F.SYS_THERM_HYST))) ∧
  (let s : State := ((inMode 2).put F.SYS_THERM_LEAN 85).put F.SYS_THERM_CRIT 125;
   let x : BitVec 16 := 0x8000;
   let measured := s.mode.thermHold = false ∧ s.boot.phase ≠ .inReset ∧ s.modeNow ≠ 4 ∧ s.modeNow ≠ 0;
   measured ∧ (x.toInt ≤ 4 * ((s.get F.SYS_THERM_LEAN : Int) - s.get F.SYS_THERM_HYST)) ∧ (x.toInt ≤ 4 * ((s.get
     F.SYS_THERM_CRIT : Int) - s.get F.SYS_THERM_HYST)) ∧ (x.toInt < 540)) ∧
  (let s : State := inMode 2;
   let x : BitVec 16 := 540;
   let measured := s.mode.thermHold = false ∧ s.boot.phase ≠ .inReset ∧ s.modeNow ≠ 4 ∧ s.modeNow ≠ 0;
   measured ∧ (540 ≤ x.toInt)) ∧
  (let s : State := { inMode 2 with mode := { up.mode with thermHold := true } };
   (s.mode.thermHold = true)) ∧
  (let s : State := inMode 2;
   let v : Word := 0x0001797A;
   let lean := bitsOf v 0 8;
   let crit := bitsOf v 8 8;
   let lawful := 85 ≤ lean ∧ lean ≤ 120 ∧ lean + 5 ≤ crit ∧ crit ≤ 125 ∧ 1 ≤ bitsOf v 16 4;
   (s.pclkOn = true) ∧ (¬ lawful)) ∧
  (let s : State := { inMode 3 with
    mode := { up.mode with raise := some 2 }, prof := { up.prof with leanActive := true } };
   (s.mode.raise = some 2) ∧ (s.modeNow = 3) ∧ (s.prof.leanActive = true)) ∧
  (let s : State := { inMode 3 with mode := { up.mode with raise := some 2 } };
   (s.mode.raise = some 2) ∧ (s.modeNow = 3) ∧ (s.prof.leanActive = false) ∧ (s.prof.target = none)) ∧
  (let s : State := { inMode 5 with mode := { up.mode with raise := some 2 } };
   (s.mode.raise = some 2) ∧ (s.modeNow = 5) ∧ (s.prof.leanActive = false) ∧ ((∀ h, h < 4 → s.running h = false))) := by
  refine ⟨?_, ?_, ?_, ?_, ?_, ?_, ?_, ?_, ?_, ?_, ?_, ?_⟩ <;> decide +kernel

theorem test_meets_HoldAndResume :
  (let s : State := (inMode 5).on F.SYS_HOLD_CTRL_PFWEN;
   let md := s.mode;
   (s.wf = true) ∧ ((s.modeNow = 2 ∨ s.modeNow = 3 ∨ s.modeNow = 5)) ∧ (s.boot.phase ≠ .inReset) ∧ (md.entryStep = 0) ∧
     (s.flag F.SYS_HOLD_CTRL_PFWEN = true)) ∧
  (let s : State := up.off F.SYS_HOLD_CTRL_PFWEN;
   let md := s.mode;
   (s.wf = true) ∧ ((s.modeNow = 2 ∨ s.modeNow = 3 ∨ s.modeNow = 5)) ∧ (s.boot.phase ≠ .inReset) ∧ (md.entryStep = 0) ∧
     (s.flag F.SYS_HOLD_CTRL_PFWEN = false) ∧ (s.modeNow ≠ 0)) ∧
  (let s : State := { up with mode := { up.mode with entryStep := 1 } };
   let md := s.mode;
   (s.wf = true) ∧ (md.entryStep = 1)) ∧
  (let s : State := { up.put F.SYS_MODE_TARGET 4 with mode := { up.mode with entryStep := 4 } };
   let md := s.mode;
   let target := s.get F.SYS_MODE_TARGET;
   (s.wf = true) ∧ (md.entryStep = 4) ∧ (target = 4) ∧ (md.emul = none) ∧ (md.resumeStep = 0)) ∧
  (let s : State := { up.put F.SYS_MODE_TARGET 0 with mode := { up.mode with entryStep := 4 } };
   let md := s.mode;
   let target := s.get F.SYS_MODE_TARGET;
   (s.wf = true) ∧ (md.entryStep = 4) ∧ (target = 0) ∧ (md.emul = none) ∧ (md.wakePending = false)) ∧
  (let s : State := { (inMode 4).wr R.SYS_RESUME_VEC 0x100000 with mode := { up.mode with pfwSeen := true } };
   let md := s.mode;
   let vec := s.rd R.SYS_RESUME_VEC;
   (s.wf = true) ∧ (s.modeNow = 4) ∧ (md.entryStep = 0) ∧ (md.resumeStep = 0) ∧ (s.holdEnds = true) ∧ (vec ≠ 0) ∧
     (s.boot.eclkFail = false) ∧ (s.boot.pclkFail = false) ∧ (s.tap.run = none)) ∧
  (let s : State := { (inMode 4).wr R.SYS_RESUME_VEC 0x100000 with boot := { phase := .done, eclkFail := true } };
   (s.wf = true) ∧ (s.rd R.SYS_RESUME_VEC ≠ 0) ∧ (s.boot.eclkFail = true ∨ s.boot.pclkFail = true)) ∧
  (let s : State := { inMode 4 with mode := { up.mode with pfwSeen := true } };
   let md := s.mode;
   let vec := s.rd R.SYS_RESUME_VEC;
   (s.wf = true) ∧ (s.modeNow = 4) ∧ (md.entryStep = 0) ∧ (md.resumeStep = 0) ∧ (s.holdEnds = true) ∧ (vec = 0)) ∧
  (let s : State := { inMode 4 with mode := { up.mode with pfwLow := true } };
   (s.wf = true) ∧ (s.holdEnds = false)) ∧
  (let s : State := { inMode 4 with mode := { up.mode with resumeStep := 3, prev := 5 } };
   let md := s.mode;
   (s.wf = true) ∧ (s.modeNow = 4) ∧ (md.resumeStep ≠ 0) ∧ (s.prof.target = none) ∧ ((md.prev = 2 ∨ md.prev = 3 ∨ md.prev
     = 5)) ∧ (md.prev = 3 → s.prof.leanActive = true) ∧ (s.leanActive = false)) ∧
  (let s : State := { inMode 4 with
     mode := { up.mode with resumeStep := 3, prev := 3 }, prof := { up.prof with leanActive := true } };
   let md := s.mode;
   (s.wf = true) ∧ (s.modeNow = 4) ∧ (md.resumeStep ≠ 0) ∧ (s.prof.target = none) ∧ (md.prev = 3) ∧ (s.prof.leanActive =
     true) ∧ (s.leanActive = false)) := by
  refine ⟨?_, ?_, ?_, ?_, ?_, ?_, ?_, ?_, ?_, ?_, ?_⟩ <;> decide +kernel

theorem test_meets_WakesAndResets :
  (let i : BitVec 2 := 3;
   let lv : Bool := true;
   let c := .wakePin ⟨3, true⟩;
   let en : Bool := true;
   let w : Word := 8;
   let s : State := ((inMode 0).put F.SYS_WAKE_CTRL_PINEN 8).put F.SYS_WAKE_CTRL_PINPOL 8;
   let sleeps := s.modeNow = 0 ∧ s.mode.entryStep = 0 ∧ s.mode.wakePending = false;
   let sources : List (Instr × Bool × Word) := [(.wakeTimerExpiry, s.flag F.SYS_WAKE_CTRL_TIMEN, 0x10), (.wakePin ⟨i, lv⟩,
     natBit (s.get F.SYS_WAKE_CTRL_PINEN) i.toNat && (lv == natBit (s.get F.SYS_WAKE_CTRL_PINPOL) i.toNat), BitVec.ofNat 32
     (2 ^ i.toNat)), (.pragusActivityWake, s.flag
     F.SYS_WAKE_CTRL_PRGEN, 0x100)];
   ((c, en, w) ∈ sources) ∧ sleeps ∧ (en = true)) ∧
  (let i : BitVec 2 := 3;
   let lv : Bool := true;
   let c := .wakePin ⟨3, true⟩;
   let en : Bool := true;
   let w : Word := 8;
   let s : State := { ((inMode 4).put F.SYS_WAKE_CTRL_PINEN 8).put F.SYS_WAKE_CTRL_PINPOL 8 with mode := { up.mode with byRequest := true } };
   let rests := s.modeNow = 4 ∧ s.mode.entryStep = 0 ∧ s.mode.byRequest = true ∧ s.mode.resumeStep = 0 ∧
     s.mode.wakePending = false;
   let sources : List (Instr × Bool × Word) := [(.wakeTimerExpiry, s.flag F.SYS_WAKE_CTRL_TIMEN, 0x10), (.wakePin ⟨i, lv⟩,
     natBit (s.get F.SYS_WAKE_CTRL_PINEN) i.toNat && (lv == natBit (s.get F.SYS_WAKE_CTRL_PINPOL) i.toNat), BitVec.ofNat 32
     (2 ^ i.toNat)), (.pragusActivityWake, s.flag
     F.SYS_WAKE_CTRL_PRGEN, 0x100)];
   ((c, en, w) ∈ sources) ∧ rests ∧ (en = true)) ∧
  (let i : BitVec 2 := 3;
   let lv : Bool := true;
   let c := .wakePin ⟨3, true⟩;
   let w : Word := 8;
   let s : State := inMode 0;
   let en : Bool := false;
   let sources : List (Instr × Bool × Word) := [(.wakeTimerExpiry, s.flag F.SYS_WAKE_CTRL_TIMEN, 0x10), (.wakePin ⟨i, lv⟩,
     natBit (s.get F.SYS_WAKE_CTRL_PINEN) i.toNat && (lv == natBit (s.get F.SYS_WAKE_CTRL_PINPOL) i.toNat), BitVec.ofNat 32
     (2 ^ i.toNat)), (.pragusActivityWake, s.flag
     F.SYS_WAKE_CTRL_PRGEN, 0x100)];
   ((c, en, w) ∈ sources) ∧ (en = false)) ∧
  (let ns : Nat := 1000;
   (1000 ≤ ns)) ∧
  (let ns : Nat := 99;
   (ns < 100)) ∧
  (let v : Word := 0xA5000001;
   let s : State := up.on F.DBG_CTRL_ATTACH;
   (s.pclkOn = true) ∧ (bitsOf v 24 8 = 0xA5) ∧ (bitOf v 0 = true) ∧ (s.tap.run = none) ∧ (bitOf v 31 = s.flag
     F.DBG_CTRL_ATTACH)) ∧
  (let s : State := up;
   let v : Word := 0xA5000000;
   (s.pclkOn = true) ∧ (¬ (bitsOf v 24 8 = 0xA5 ∧ bitOf v 0 = true))) := by
  refine ⟨?_, ?_, ?_, ?_, ?_, ?_, ?_⟩ <;> decide +kernel

theorem test_meets_StoreBanks :
  (let s : State := up;
   let n : BankNo := 15;
   let v : Word := 0x1C;
   let code := v.toNat % 64;
   let busy := s.flag (F.STORE_OWNER_BUSY n);
   let locked := s.flag (F.STORE_OWNER_LOCK n);
   let owner := s.get (F.STORE_OWNER_OWNER n);
   (s.pclkOn = true) ∧ (busy = false) ∧ (locked = false) ∧ (s.bankOn n = true) ∧ ((code ≤ 0x16 ∨ 0x18 ≤ code ∧ code ≤
     0x1C ∨ code = 0x3F)) ∧ (code ≠ owner)) ∧
  (let n : BankNo := 15;
   let s : State := up.on (F.STORE_OWNER_BUSY 15);
   let busy := s.flag (F.STORE_OWNER_BUSY n);
   let locked := s.flag (F.STORE_OWNER_LOCK n);
   (s.pclkOn = true) ∧ ((busy = true ∨ locked = true ∨ s.bankOn n = false))) ∧
  (let s : State := up;
   let n : BankNo := 15;
   let v : Word := 16;
   let code := v.toNat % 64;
   let busy := s.flag (F.STORE_OWNER_BUSY n);
   let locked := s.flag (F.STORE_OWNER_LOCK n);
   let owner := s.get (F.STORE_OWNER_OWNER n);
   (s.pclkOn = true) ∧ (busy = false) ∧ (locked = false) ∧ (s.bankOn n = true) ∧ (code = owner) ∧ ((code ≤ 0x16 ∨ 0x18 ≤
     code ∧ code ≤ 0x1C ∨ code = 0x3F))) ∧
  (let n : BankNo := 15;
   let s : State := { (up.on (F.STORE_OWNER_BUSY 15)).on F.STORE_HO_TIMEOUT_LIMIT with eng := [] };
   let busy := s.flag (F.STORE_OWNER_BUSY n);
   (busy = true) ∧ (busy = true ∧ s.flag F.STORE_HO_TIMEOUT_LIMIT = true ∧ s.cc.stalled = none)) ∧
  (let s : State := { (((up.on (F.STORE_OWNER_BUSY 15)).put (F.STORE_OWNER_PREV 15) 0x11).on F.STORE_HO_TIMEOUT_LIMIT).on
     (F.DMA_CH_STATUS_BUSY 7) with eng := [] };
   let n : BankNo := 15;
   let ch : ChanNo := 7;
   (s.flag (F.STORE_OWNER_BUSY n) = true) ∧ (s.flag F.STORE_HO_TIMEOUT_LIMIT = true) ∧ (covers (s.get (F.STORE_OWNER_PREV n))
     0x11 = true) ∧ (s.dmaRuns ch = true)) ∧
  (let s : State := up.off F.STORE_HO_TIMEOUT_LIMIT;
   (s.flag F.STORE_HO_TIMEOUT_LIMIT = false)) ∧
  (let n : BankNo := 15;
   let s : State := up.put (F.STORE_OWNER_OWNER 15) 0x3F;
   let busy := s.flag (F.STORE_OWNER_BUSY n);
   let locked := s.flag (F.STORE_OWNER_LOCK n);
   let owner := s.get (F.STORE_OWNER_OWNER n);
   let pwr := fun (t : State) => bitsOf (t.rd R.STORE_PWR) (2 * n) 2;
   let coming := fun (t : State) => natBit (t.get F.STORE_PWR_STATUS_COMING) n;
   (s.pclkOn = true) ∧ (pwr s = 0) ∧ (coming s = false) ∧ (owner = 0x3F) ∧ (locked = false) ∧ (busy = false)) ∧
  (let n : BankNo := 15;
   let k : Nat := 2;
   let s : State := up.put (F.STORE_OWNER_OWNER 15) 2;
   let busy := s.flag (F.STORE_OWNER_BUSY n);
   let locked := s.flag (F.STORE_OWNER_LOCK n);
   let owner := s.get (F.STORE_OWNER_OWNER n);
   let pwr := fun (t : State) => bitsOf (t.rd R.STORE_PWR) (2 * n) 2;
   let coming := fun (t : State) => natBit (t.get F.STORE_PWR_STATUS_COMING) n;
   (s.pclkOn = true) ∧ (pwr s = 0) ∧ (coming s = false) ∧ ((owner ≠ 0x3F ∨ locked = true ∨ busy = true)) ∧ (k = 1 ∨ k =
     2)) ∧
  (let n : BankNo := 15;
   let s : State := up.wr R.STORE_PWR 0x80000000;
   let locked := s.flag (F.STORE_OWNER_LOCK n);
   let pwr := fun (t : State) => bitsOf (t.rd R.STORE_PWR) (2 * n) 2;
   let coming := fun (t : State) => natBit (t.get F.STORE_PWR_STATUS_COMING) n;
   (s.pclkOn = true) ∧ ((pwr s = 1 ∨ pwr s = 2)) ∧ (coming s = false) ∧ (locked = false)) ∧
  (let n : BankNo := 15;
   let s : State := up.put F.STORE_PWR_STATUS_COMING 0x8000;
   let coming := fun (t : State) => natBit (t.get F.STORE_PWR_STATUS_COMING) n;
   (coming s = true)) := by
  refine ⟨?_, ?_, ?_, ?_, ?_, ?_, ?_, ?_, ?_, ?_⟩ <;> decide +kernel

theorem test_meets_ErrorInjection :
  (let s : State := (up.on F.STORE_ECC_INJ_INJ).put F.STORE_ECC_INJ_BANK 15;
   let v : Word := 0x8000030F;
   (s.pclkOn = true) ∧ (bitOf v 31 = true)) ∧
  (let s : State := (up.on F.STORE_ECC_INJ_INJ).put F.STORE_ECC_INJ_BANK 15;
   let k : Nat := 0x107FFFFE;
   let bs : List Byte := [7, 8];
   let d : Byte := 7;
   let j : Nat := 0x107FFFFF;
   (s.boot.cells = []) ∧ (s.flag F.STORE_ECC_INJ_INJ = true) ∧ (inStore k = true) ∧ (bankOf k = s.get F.STORE_ECC_INJ_BANK) ∧
     (bs ≠ []) ∧
     (bs.head? = some d) ∧ (k < j) ∧ (j < k + bs.length)) ∧
  (let i : Fin 5 := 0;
   let j : Fin 5 := 4;
   (i ≠ j)) := by
  refine ⟨?_, ?_, ?_⟩ <;> decide +kernel

theorem test_meets_ScrubAndMarch :
  (let v : Word := 0;
   let s : State := (up.wr R.SCRUB_START 0x10000000).wr R.SCRUB_END 0x107FFFFC;
   let a := (s.rd R.SCRUB_START).toNat;
   let b := (s.rd R.SCRUB_END).toNat;
   let lawful := inStore a = true ∧ inStore b = true ∧ a ≤ b ∧ a % 4 = 0 ∧ b % 4 = 0;
   let scrubs := s.flag F.SCRUB_STATUS_BUSY;
   (s.pclkOn = true) ∧ (bitOf v 2 = false) ∧ (scrubs = false) ∧ lawful) ∧
  (let v : Word := 0;
   let s : State := (up.wr R.SCRUB_START 0x10000002).wr R.SCRUB_END 0x107FFFFC;
   let a := (s.rd R.SCRUB_START).toNat;
   let b := (s.rd R.SCRUB_END).toNat;
   let lawful := inStore a = true ∧ inStore b = true ∧ a ≤ b ∧ a % 4 = 0 ∧ b % 4 = 0;
   let scrubs := s.flag F.SCRUB_STATUS_BUSY;
   (s.pclkOn = true) ∧ (bitOf v 2 = false) ∧ ((scrubs = true ∨ ¬ lawful))) ∧
  (let s : State := { ((up.wr R.SCRUB_START 0x10000000).wr R.SCRUB_END 0x10000008).on F.SCRUB_STATUS_BUSY with
    store := { up.store with scrubPos := 0x10000000, scrubTo := 0x10000008 } };
   let scrubs := s.flag F.SCRUB_STATUS_BUSY;
   let pos := s.store.scrubPos;
   let left := (s.store.scrubTo + 4 - pos) / 4;
   let sound := fun (n : Nat) => (∀ j, j < n → s.bankOn (bankOf (pos + 4 * j)) = true ∧ (s.eccBytes (pos + 4 * j) 4).2 =
     .clean ∧ ∀ i, i < 4 → s.inUndef (pos + 4 * j + i) = false);
   (scrubs = true) ∧ (sound left) ∧ (s.pclkOn = true) ∧ (sound (min left 2))) ∧
  (let s : State := { (((up.wr R.SCRUB_START 0x10000000).wr R.SCRUB_END 0x10000008).on F.SCRUB_STATUS_BUSY).on
    F.SCRUB_CTRL_FIX with store := { up.store with scrubPos := 0x10000008, scrubTo := 0x10000008 }, ecc := [(0x10000008, 1)] };
   let scrubs := s.flag F.SCRUB_STATUS_BUSY;
   let pos := s.store.scrubPos;
   let left := (s.store.scrubTo + 4 - pos) / 4;
   (s.boot.cells = []) ∧ (scrubs = true) ∧ (s.flag F.SCRUB_CTRL_FIX = true) ∧ (0 < left) ∧ (s.bankOn (bankOf pos) = true) ∧
     ((∀ i, i < 4 →
     s.inUndef (pos + i) = false)) ∧ ((s.eccBytes pos 4).2 = .corr)) ∧
  (let v : Word := 15;
   let s : State := up.put (F.STORE_OWNER_OWNER 15) 0x3F;
   let bank := v.toNat % 16;
   let free := s.flag F.STORE_MARCH_STATUS_BUSY = false ∧ s.bankOn bank = true ∧ s.flag (F.STORE_OWNER_BUSY bank) = false
     ∧ s.get (F.STORE_OWNER_OWNER bank) = 0x3F;
   (s.pclkOn = true) ∧ (bitOf v 8 = false) ∧ free ∧ (s.flag (F.STORE_OWNER_LOCK bank) = false)) ∧
  (let v : Word := 15;
   let s : State := up.on (F.STORE_OWNER_LOCK 15);
   let bank := v.toNat % 16;
   let free := s.flag F.STORE_MARCH_STATUS_BUSY = false ∧ s.bankOn bank = true ∧ s.flag (F.STORE_OWNER_BUSY bank) = false
     ∧ s.get (F.STORE_OWNER_OWNER bank) = 0x3F;
   (s.pclkOn = true) ∧ ((¬ free ∨ bitOf v 8 = false ∧ s.flag (F.STORE_OWNER_LOCK bank) = true))) ∧
  (let s : State := { up.on F.STORE_MARCH_STATUS_BUSY with
    undef := [(0x10080000, 0x10100000)], store := { up.store with marchBank := 1 } };
   let n := s.store.marchBank;
   (s.boot.cells = []) ∧ (s.flag F.STORE_MARCH_STATUS_BUSY = true) ∧ (s.store.marchKeep = false) ∧ ((∀ p, p ∈ s.undef →
     inBank n p.1 = true ∨
     p.2 ≤ bankBase n ∨ bankBase (n + 1) ≤ p.1))) := by
  refine ⟨?_, ?_, ?_, ?_, ?_, ?_, ?_⟩ <;> decide +kernel

theorem test_meets_SiroccoList :
  (let s : State := up;
   let busy := s.flag F.BLIT_STATUS_BUSY;
   (s.pclkOn = true) ∧ (busy = false)) ∧
  (let v : Word := 0;
   let s : State := up.on F.BLIT_STATUS_BUSY;
   let busy := s.flag F.BLIT_STATUS_BUSY;
   (s.pclkOn = true) ∧ (bitOf v 1 = false) ∧ (busy = true)) ∧
  (let s : State := bl 1 0 0 0;
   let ws : List Word := wds (cmd 1 0);
   let cur := s.rd R.BLIT_CUR;
   let reads := s.blitRuns = true ∧ s.waiting.any isBlit = false ∧ s.blit.paced = none ∧ s.blitWords cur.toNat = ((ws, 0), s);
   reads ∧ (cmdOp ws = 1)) ∧
  (let s : State := bl 0 0 0 0;
   let ws : List Word := wds (cmd 0 0);
   let cur := s.rd R.BLIT_CUR;
   let reads := s.blitRuns = true ∧ s.waiting.any isBlit = false ∧ s.blit.paced = none ∧ s.blitWords cur.toNat = ((ws, 0), s);
   reads ∧ (cmdOp ws = 0)) ∧
  (let s : State := bl 7 0 0 0;
   let ws : List Word := wds (cmd 7 0);
   let cur := s.rd R.BLIT_CUR;
   let reads := s.blitRuns = true ∧ s.waiting.any isBlit = false ∧ s.blit.paced = none ∧ s.blitWords cur.toNat = ((ws, 0), s);
   reads ∧ (7 ≤ cmdOp ws)) := by
  refine ⟨?_, ?_, ?_, ?_, ?_⟩ <;> decide +kernel

theorem test_meets_SiroccoPixels :
  (let sw : List Word := wds (desc 0x10001000 0);
   let dw : List Word := wds (desc 0x10002000 0);
   let key : Nat := 0x10002204;
   let s : State := bl 2 5 0 0x80112233;
   let ws : List Word := wds (cmd 2 5);
   let cur := s.rd R.BLIT_CUR;
   let reads := s.blitRuns = true ∧ s.waiting.any isBlit = false ∧ s.blit.paced = none ∧ s.blitWords cur.toNat = ((ws, 0), s) ∧
     cmdReservedOk ws = true
     ∧ (cmdWord ws 1).toNat % 32 = 0 ∧ (cmdWord ws 2).toNat % 32 = 0 ∧ (cmdOp ws ≠ 2 → s.blitWords (cmdWord ws 1).toNat =
     ((sw, 0), s)) ∧ s.blitWords (cmdWord ws 2).toNat = ((dw, 0), s);
   let sf := if cmdOp ws = 2 then surfOf [] else surfOf sw;
   let df := surfOf dw;
   let addr := df.base + cmdDY ws * df.stride + cmdDX ws * 4;
   let one := cmdW ws = 1 ∧ cmdH ws = 1 ∧ cmdRot ws = 0 ∧ cmdMirX ws = false ∧ cmdMirY ws = false ∧ cmdPace ws = false ∧
     df.fmt = 0 ∧ s.blitCheck ws sf df = 0 ∧ s.blockPort 0x12 addr 4 = .ok key;
   reads ∧ one ∧ (cmdOp ws = 2)) ∧
  (let s : State := ((State.words (bl 2 5 0 0) 0x10000140 (desc 0x10080000 0)).put (F.STORE_OWNER_OWNER 1) 0x12).on
     (F.STORE_OWNER_BUSY 1);
   let ws : List Word := wds (cmd 2 5);
   let dw : List Word := wds (desc 0x10080000 0);
   let cur := s.rd R.BLIT_CUR;
   let reads := s.blitRuns = true ∧ s.waiting.any isBlit = false ∧ s.blit.paced = none ∧ s.blitWords cur.toNat = ((ws, 0), s) ∧
     cmdReservedOk ws = true ∧ (cmdWord ws 1).toNat % 32 = 0 ∧ (cmdWord ws 2).toNat % 32 = 0 ∧ s.blitWords (cmdWord ws
     2).toNat = ((dw, 0), s);
   let df := surfOf dw;
   let addr := df.base + cmdDY ws * df.stride + cmdDX ws * 4;
   reads ∧ cmdW ws = 1 ∧ cmdH ws = 1 ∧ cmdRot ws = 0 ∧ cmdMirX ws = false ∧ cmdMirY ws = false ∧ cmdPace ws = false ∧ df.fmt =
     0 ∧ s.blitCheck ws (surfOf []) df = 0 ∧ s.blockPort 0x12 addr 4 = .held 1 ∧ s.blocked = false ∧ cmdOp ws = 2) ∧
  (let sw : List Word := wds (desc 0x10001000 0);
   let dw : List Word := wds (desc 0x10002000 0);
   let key : Nat := 0x10002204;
   let w : Word := 0x80112233;
   let s : State := bl 3 5 0 0x80112233;
   let ws : List Word := wds (cmd 3 5);
   let cur := s.rd R.BLIT_CUR;
   let reads := s.blitRuns = true ∧ s.waiting.any isBlit = false ∧ s.blit.paced = none ∧ s.blitWords cur.toNat = ((ws, 0), s) ∧
     cmdReservedOk ws = true
     ∧ (cmdWord ws 1).toNat % 32 = 0 ∧ (cmdWord ws 2).toNat % 32 = 0 ∧ (cmdOp ws ≠ 2 → s.blitWords (cmdWord ws 1).toNat =
     ((sw, 0), s)) ∧ s.blitWords (cmdWord ws 2).toNat = ((dw, 0), s);
   let sf := if cmdOp ws = 2 then surfOf [] else surfOf sw;
   let df := surfOf dw;
   let addr := df.base + cmdDY ws * df.stride + cmdDX ws * 4;
   let one := cmdW ws = 1 ∧ cmdH ws = 1 ∧ cmdRot ws = 0 ∧ cmdMirX ws = false ∧ cmdMirY ws = false ∧ cmdPace ws = false ∧
     df.fmt = 0 ∧ s.blitCheck ws sf df = 0 ∧ s.blockPort 0x12 addr 4 = .ok key;
   let source := sf.fmt = 0 ∧ s.blitRead sf (cmdSX ws) (cmdSY ws) = ((w, 0, 0), s);
   reads ∧ one ∧ source ∧ (cmdOp ws = 3)) ∧
  (let sw : List Word := wds (desc 0x10001000 0);
   let dw : List Word := wds (desc 0x10002000 0);
   let key : Nat := 0x10002204;
   let w : Word := 0x80112233;
   let s : State := bl 4 5 0 0x80112233;
   let ws : List Word := wds (cmd 4 5);
   let cur := s.rd R.BLIT_CUR;
   let reads := s.blitRuns = true ∧ s.waiting.any isBlit = false ∧ s.blit.paced = none ∧ s.blitWords cur.toNat = ((ws, 0), s) ∧
     cmdReservedOk ws = true
     ∧ (cmdWord ws 1).toNat % 32 = 0 ∧ (cmdWord ws 2).toNat % 32 = 0 ∧ (cmdOp ws ≠ 2 → s.blitWords (cmdWord ws 1).toNat =
     ((sw, 0), s)) ∧ s.blitWords (cmdWord ws 2).toNat = ((dw, 0), s);
   let sf := if cmdOp ws = 2 then surfOf [] else surfOf sw;
   let df := surfOf dw;
   let addr := df.base + cmdDY ws * df.stride + cmdDX ws * 4;
   let one := cmdW ws = 1 ∧ cmdH ws = 1 ∧ cmdRot ws = 0 ∧ cmdMirX ws = false ∧ cmdMirY ws = false ∧ cmdPace ws = false ∧
     df.fmt = 0 ∧ s.blitCheck ws sf df = 0 ∧ s.blockPort 0x12 addr 4 = .ok key;
   let source := sf.fmt = 0 ∧ s.blitRead sf (cmdSX ws) (cmdSY ws) = ((w, 0, 0), s);
   reads ∧ one ∧ source ∧ (cmdOp ws = 4) ∧ (w.toNat % 2 ^ 24 ≠ (cmdColor ws).toNat % 2 ^ 24)) ∧
  (let sw : List Word := wds (desc 0x10001000 0);
   let dw : List Word := wds (desc 0x10002000 0);
   let key : Nat := 0x10002204;
   let w : Word := 0x80112233;
   let s : State := bl 4 0x112233 0 0x80112233;
   let ws : List Word := wds (cmd 4 0x112233);
   let cur := s.rd R.BLIT_CUR;
   let reads := s.blitRuns = true ∧ s.waiting.any isBlit = false ∧ s.blit.paced = none ∧ s.blitWords cur.toNat = ((ws, 0), s) ∧
     cmdReservedOk ws = true
     ∧ (cmdWord ws 1).toNat % 32 = 0 ∧ (cmdWord ws 2).toNat % 32 = 0 ∧ (cmdOp ws ≠ 2 → s.blitWords (cmdWord ws 1).toNat =
     ((sw, 0), s)) ∧ s.blitWords (cmdWord ws 2).toNat = ((dw, 0), s);
   let sf := if cmdOp ws = 2 then surfOf [] else surfOf sw;
   let df := surfOf dw;
   let addr := df.base + cmdDY ws * df.stride + cmdDX ws * 4;
   let one := cmdW ws = 1 ∧ cmdH ws = 1 ∧ cmdRot ws = 0 ∧ cmdMirX ws = false ∧ cmdMirY ws = false ∧ cmdPace ws = false ∧
     df.fmt = 0 ∧ s.blitCheck ws sf df = 0 ∧ s.blockPort 0x12 addr 4 = .ok key;
   let source := sf.fmt = 0 ∧ s.blitRead sf (cmdSX ws) (cmdSY ws) = ((w, 0, 0), s);
   reads ∧ one ∧ source ∧ (cmdOp ws = 4) ∧ (w.toNat % 2 ^ 24 = (cmdColor ws).toNat % 2 ^ 24)) ∧
  (let sw : List Word := wds (desc 0x10001000 0);
   let dw : List Word := wds (desc 0x10002000 0);
   let key : Nat := 0x10002204;
   let d : Word := 0x40332211;
   let w : Word := 0x80112233;
   let s : State := bl 5 255 0 0x80112233;
   let ws : List Word := wds (cmd 5 255);
   let cur := s.rd R.BLIT_CUR;
   let reads := s.blitRuns = true ∧ s.waiting.any isBlit = false ∧ s.blit.paced = none ∧ s.blitWords cur.toNat = ((ws, 0), s) ∧
     cmdReservedOk ws = true
     ∧ (cmdWord ws 1).toNat % 32 = 0 ∧ (cmdWord ws 2).toNat % 32 = 0 ∧ (cmdOp ws ≠ 2 → s.blitWords (cmdWord ws 1).toNat =
     ((sw, 0), s)) ∧ s.blitWords (cmdWord ws 2).toNat = ((dw, 0), s);
   let sf := if cmdOp ws = 2 then surfOf [] else surfOf sw;
   let df := surfOf dw;
   let addr := df.base + cmdDY ws * df.stride + cmdDX ws * 4;
   let one := cmdW ws = 1 ∧ cmdH ws = 1 ∧ cmdRot ws = 0 ∧ cmdMirX ws = false ∧ cmdMirY ws = false ∧ cmdPace ws = false ∧
     df.fmt = 0 ∧ s.blitCheck ws sf df = 0 ∧ s.blockPort 0x12 addr 4 = .ok key;
   let source := sf.fmt = 0 ∧ s.blitRead sf (cmdSX ws) (cmdSY ws) = ((w, 0, 0), s);
   reads ∧ one ∧ source ∧ (cmdOp ws = 5) ∧ (sf.premul = false) ∧ (s.blitRead df (cmdDX ws) (cmdDY ws) = ((d, 0, 0), s))) ∧
  (let sw : List Word := wds (desc 0x10001000 0);
   let dw : List Word := wds (desc 0x10002000 0);
   let key : Nat := 0x10002204;
   let w : Word := 0x80112233;
   let s : State := bl 6 5 0 0x80112233;
   let ws : List Word := wds (cmd 6 5);
   let cur := s.rd R.BLIT_CUR;
   let reads := s.blitRuns = true ∧ s.waiting.any isBlit = false ∧ s.blit.paced = none ∧ s.blitWords cur.toNat = ((ws, 0), s) ∧
     cmdReservedOk ws = true
     ∧ (cmdWord ws 1).toNat % 32 = 0 ∧ (cmdWord ws 2).toNat % 32 = 0 ∧ (cmdOp ws ≠ 2 → s.blitWords (cmdWord ws 1).toNat =
     ((sw, 0), s)) ∧ s.blitWords (cmdWord ws 2).toNat = ((dw, 0), s);
   let sf := if cmdOp ws = 2 then surfOf [] else surfOf sw;
   let df := surfOf dw;
   let addr := df.base + cmdDY ws * df.stride + cmdDX ws * 4;
   let one := cmdW ws = 1 ∧ cmdH ws = 1 ∧ cmdRot ws = 0 ∧ cmdMirX ws = false ∧ cmdMirY ws = false ∧ cmdPace ws = false ∧
     df.fmt = 0 ∧ s.blitCheck ws sf df = 0 ∧ s.blockPort 0x12 addr 4 = .ok key;
   let source := sf.fmt = 0 ∧ s.blitRead sf (cmdSX ws) (cmdSY ws) = ((w, 0, 0), s);
   reads ∧ one ∧ source ∧ (cmdOp ws = 6)) ∧
  (let dw : List Word := wds (desc 0x10002000 0);
   let s : State := bl 3 5 15 0x80112233;
   let ws : List Word := wds (cmd 3 5);
   let sw : List Word := wds (desc 0x10001000 15);
   let c : Instr := .blitCopy;
   let cur := s.rd R.BLIT_CUR;
   let reads := s.blitRuns = true ∧ s.waiting.any isBlit = false ∧ s.blit.paced = none ∧ s.blitWords cur.toNat = ((ws, 0), s) ∧
     cmdReservedOk ws = true
     ∧ (cmdWord ws 1).toNat % 32 = 0 ∧ (cmdWord ws 2).toNat % 32 = 0 ∧ (cmdOp ws ≠ 2 → s.blitWords (cmdWord ws 1).toNat =
     ((sw, 0), s)) ∧ s.blitWords (cmdWord ws 2).toNat = ((dw, 0), s);
   let sf := if cmdOp ws = 2 then surfOf [] else surfOf sw;
   let df := surfOf dw;
   ((c, cmdOp ws) ∈ [(Instr.blitFill, 2), (.blitCopy, 3), (.blitKey, 4), (.blitBlend, 5), (.blitConvert, 6)]) ∧ reads ∧
     (s.blitCheck ws sf df ≠ 0)) ∧
  (let p : PacedSt := pacing;
   let s : State := { State.beam (bl 2 5 0 0) 0 .running 1 1 with blit := { paced := some p } };
   let row := cmdDY p.words + p.row;
   (s.blit.paced = some p) ∧ (s.blitRuns = true) ∧ (s.waiting.any isBlit = false) ∧ (cmdOp p.words = 2) ∧ (cmdRot p.words = 0) ∧
     (cmdW p.words = 1) ∧
     (cmdMirX p.words = false) ∧ (cmdMirY p.words = false) ∧ (p.dst.fmt = 0) ∧ (p.row < cmdH p.words) ∧ (s.paceIn row =
     false)) ∧
  (let key : Nat := 0x10002204;
   let p : PacedSt := pacing;
   let s : State := { (State.beam (bl 2 5 0 0) 0 .running 0 0).put F.BLIT_PACE_N 4 with blit := { paced := some p } };
   let row := cmdDY p.words + p.row;
   (s.blit.paced = some p) ∧ (s.blitRuns = true) ∧ (s.waiting.any isBlit = false) ∧ (cmdOp p.words = 2) ∧ (cmdRot p.words = 0) ∧
     (cmdW p.words = 1) ∧
     (cmdMirX p.words = false) ∧ (cmdMirY p.words = false) ∧ (p.dst.fmt = 0) ∧ (p.row < cmdH p.words) ∧ (s.paceIn row =
     true) ∧ (s.blockPort 0x12 (p.dst.base + row * p.dst.stride + cmdDX p.words * 4) 4 = .ok key)) := by
  refine ⟨?_, ?_, ?_, ?_, ?_, ?_, ?_, ?_, ?_, ?_⟩ <;> decide +kernel

theorem test_meets_DmaChannels :
  (let n : ChanNo := 7;
   let s : State := dm 7;
   let v : Word := 0x00000320;
   let busy := s.flag (F.DMA_CH_STATUS_BUSY n);
   let armed := s.flag (F.DMA_CH_STATUS_ARMED n);
   let written := fun (w : Word) => { s with resp := .none }.maskWrite (R.DMA_CH_CTRL n) w;
   let go := (v ||| 0x80000000) &&& 0x9FFFFFFF;
   let arm := (v ||| 0x20000000) &&& 0x3FFFFFFF;
   (s.pclkOn = true) ∧ (busy = false) ∧ (armed = false) ∧ ((written go).dmaCheck n = 0) ∧ ((written arm).dmaCheck n = 0)
     ∧ ((written arm).get (F.DMA_CH_CTRL_TRIG n) < 40)) ∧
  (let n : ChanNo := 7;
   let s : State := dm 7;
   let v : Word := 0x30;
   let busy := s.flag (F.DMA_CH_STATUS_BUSY n);
   let armed := s.flag (F.DMA_CH_STATUS_ARMED n);
   let written := fun (w : Word) => { s with resp := .none }.maskWrite (R.DMA_CH_CTRL n) w;
   let go := (v ||| 0x80000000) &&& 0x9FFFFFFF;
   (s.pclkOn = true) ∧ (busy = false) ∧ (armed = false) ∧ ((written go).dmaCheck n ≠ 0)) ∧
  (let n : ChanNo := 7;
   let s : State := dm 7;
   let v : Word := 0x00280020;
   let busy := s.flag (F.DMA_CH_STATUS_BUSY n);
   let armed := s.flag (F.DMA_CH_STATUS_ARMED n);
   let written := fun (w : Word) => { s with resp := .none }.maskWrite (R.DMA_CH_CTRL n) w;
   let arm := (v ||| 0x20000000) &&& 0x3FFFFFFF;
   (s.pclkOn = true) ∧ (busy = false) ∧ (armed = false) ∧ ((written arm).dmaCheck n = 0) ∧ (40 ≤ (written arm).get
     (F.DMA_CH_CTRL_TRIG n))) ∧
  (let m : Master := .core;
   let n : ChanNo := 7;
   let v : Word := 0x00000320;
   let s : State := (dm 7).on (F.DMA_CH_STATUS_ARMED 7);
   let c := .dmaArm m n v;
   let busy := s.flag (F.DMA_CH_STATUS_BUSY n);
   let armed := s.flag (F.DMA_CH_STATUS_ARMED n);
   (s.pclkOn = true) ∧ ((busy = true ∨ armed = true)) ∧ (c = Instr.dmaGo m n v ∨ c = .dmaArm m n v) ∧ (busy = false) ∧
     (armed = true)) ∧
  (let n : ChanNo := 7;
   let s : State := (dm 7).on (F.DMA_CH_STATUS_BUSY 7);
   let busy := s.flag (F.DMA_CH_STATUS_BUSY n);
   let x := s.dmaSt n;
   let key : Nat := 0x10080000;
   let bs : List Byte := [1, 2, 3, 4];
   let a := s.dmaAddr n true x;
   let b := s.dmaAddr n false x;
   let e := 2 ^ s.get (F.DMA_CH_CTRL_ESIZE n);
   (s.pclkOn = true) ∧ (busy = true) ∧ (x.moved = false) ∧ (s.dmaTurn n = true) ∧ (s.dmaBurstLen n = 1) ∧ (s.mapRead .dma
     3 0x11 1 a e = (some (bs, .clean), s)) ∧ (s.mapWhere .dma b e true = .mem key) ∧ (bs.length = e)) ∧
  (let n : ChanNo := 7;
   let s : State := ((dm 7).on (F.DMA_CH_STATUS_BUSY 7)).setDma 7 { moved := true };
   let busy := s.flag (F.DMA_CH_STATUS_BUSY n);
   let x := s.dmaSt n;
   (busy = true) ∧ (x.moved = true)) ∧
  (let n : ChanNo := 7;
   let s : State := { ((dm 7).on (F.DMA_CH_STATUS_BUSY 7)).on (F.DMA_CH_STATUS_BUSY 3) with dmaLast := 0 };
   (s.dmaRuns n = true) ∧ (s.dmaTurn n = false) ∧ (s.dmaTurn 3 = true)) := by
  refine ⟨?_, ?_, ?_, ?_, ?_, ?_, ?_⟩ <;> decide +kernel

theorem test_meets_Cameras :
  (let n : PortNo := 0;
   let v : Word := 0x00030000;
   let s : State := ((cm 0 false false).off (F.CAM_CTRL_EN 0)).off (F.CAM_STATUS_RUN 0);
   let s1 := { s with resp := .none }.maskWrite (R.CAM_CTRL n) (v ||| 0x80000000);
   (s.pclkOn = true) ∧ (s.flag (F.CAM_CTRL_EN n) = false) ∧ (s.flag (F.CAM_STATUS_RUN n) = false) ∧ (s1.camCheck n = 0)) ∧
  (let n : PortNo := 0;
   let v : Word := 0x00030000;
   let s : State := (((cm 0 false false).off (F.CAM_CTRL_EN 0)).off (F.CAM_STATUS_RUN 0)).put (F.CAM_FMT_DT 0) 0;
   let s1 := { s with resp := .none }.maskWrite (R.CAM_CTRL n) (v ||| 0x80000000);
   (s.pclkOn = true) ∧ (s.flag (F.CAM_CTRL_EN n) = false) ∧ (s.flag (F.CAM_STATUS_RUN n) = false) ∧ (s1.camCheck n ≠ 0)) ∧
  (let s : State := up;
   (s.pclkOn = true)) ∧
  (let n : PortNo := 0;
   let vc : BitVec 2 := 1;
   let num : BitVec 16 := 7;
   let b : Nat := 0;
   let s : State := cm 0 false false;
   let c := s.camSt n;
   let count := s.get (F.CAM_CTRL_NBUF n) + 1;
   let first := match c.lastDone with | some b => (b + 1) % count | none => 0;
   let reg := fun (r : Nat) => (s.rd r).toNat;
   let buffer := fun (b : Nat) => { c with
     ybase := reg (R.CAM_YBASE n b), aux := reg (R.CAM_AUX n b), aux2 := reg (R.CAM_AUX2 n b), lines := 0, frameNum :=
     num.toNat, ended := false };
   let taken := ((List.range count).map fun i => (first + i) % count).find? fun b => !natBit (s.get (F.CAM_LOCK_LOCK n))
     b;
   (s.waiting.any (isCamera n) = false) ∧ (s.camRuns n = true) ∧ (vc.toNat = s.get (F.CAM_FMT_VC n)) ∧
     (s.flag (F.CAM_STATUS_INFRAME n) = false) ∧ (c.ended =
     false) ∧ (s.cc.halted = false) ∧ (taken = some b) ∧ (s.camFits n (buffer b) = true)) ∧
  (let n : PortNo := 0;
   let vc : BitVec 2 := 1;
   let b : Nat := 0;
   let s : State := (cm 0 false false).put (F.CAM_LOCK_LOCK 0) 15;
   let c := s.camSt n;
   let count := s.get (F.CAM_CTRL_NBUF n) + 1;
   let first := match c.lastDone with | some b => (b + 1) % count | none => 0;
   let taken := ((List.range count).map fun i => (first + i) % count).find? fun b => !natBit (s.get (F.CAM_LOCK_LOCK n))
     b;
   (s.waiting.any (isCamera n) = false) ∧ (s.camRuns n = true) ∧ (vc.toNat = s.get (F.CAM_FMT_VC n)) ∧
     (s.flag (F.CAM_STATUS_INFRAME n) = false) ∧ (c.ended =
     false) ∧ (s.cc.halted = false) ∧ (taken = none)) ∧
  (let n : PortNo := 0;
   let vc : BitVec 2 := 1;
   let bs : List Byte := [1, 2, 3, 4, 5, 6, 7, 8];
   let key : Nat := 0x10081300;
   let s : State := cm 3 true false;
   let c := s.camSt n;
   let inFrame := s.waiting.any (isCamera n) = false ∧ s.camRuns n = true ∧ s.flag (F.CAM_STATUS_INFRAME n) = true ∧
     c.ended = false ∧ vc.toNat = s.get
     (F.CAM_FMT_VC n);
   inFrame ∧ (s.get (F.CAM_FMT_DT n) = 0x2A) ∧ (s.get (F.CAM_FMT_OUT n) = 3) ∧ (c.lines < s.get (F.CAM_SIZE_HEIGHT n)) ∧
     (bs.length = s.get (F.CAM_SIZE_WIDTH n)) ∧ (s.blockPort (0x13 + n.val) (c.ybase + c.lines * s.get
     (F.CAM_STRIDE_STRIDE n)) bs.length = .ok key) ∧ (c.lines ≠ s.get (F.CAM_SIZE_HEIGHT n))) ∧
  (let n : PortNo := 0;
   let vc : BitVec 2 := 1;
   let s : State := cm 4 true false;
   let c := s.camSt n;
   let inFrame := s.waiting.any (isCamera n) = false ∧ s.camRuns n = true ∧ s.flag (F.CAM_STATUS_INFRAME n) = true ∧
     c.ended = false ∧ vc.toNat = s.get
     (F.CAM_FMT_VC n);
   inFrame ∧ (c.lines = s.get (F.CAM_SIZE_HEIGHT n))) ∧
  (let n : PortNo := 0;
   let s : State := cm 4 true true;
   let c := s.camSt n;
   (s.waiting.any (isCamera n) = false) ∧ (s.camRuns n = true) ∧ (c.ended = true)) := by
  refine ⟨?_, ?_, ?_, ?_, ?_, ?_, ?_, ?_⟩ <;> decide +kernel

theorem test_meets_Audio :
  (let s : State := up.on F.AUD_CTRL_EN;
   let p : Nat := 2;
   (s.audRuns = true) ∧ (s.audFrozen = false) ∧ (s.pclkOn = true) ∧ (p < 3) ∧ (s.flag F.AUD_CTRL_EN = true)) ∧
  (let s : State := { (up.on F.AUD_CTRL_EN).on F.DBG_FREEZE_AUD with cc := { up.cc with halted := true } };
   (s.audRuns = true) ∧ (s.audFrozen = true)) ∧
  (let s : State := up;
   let p : Nat := 2;
   (s.audRuns = false) ∧ (s.pclkOn = true) ∧ (p < 3) ∧ (s.flag F.AUD_CTRL_EN = false)) ∧
  (let s : State := up.on F.AUD_CTRL_CLKSRC;
   (s.flag F.AUD_CTRL_CLKSRC = true) ∧ (s.flag F.AUD_STATUS_MCLKEXT = false) ∧ (up.flag F.AUD_CTRL_CLKSRC = false)) ∧
  (let n : SourceNo := 31;
   let s : State := up;
   let v : Word := 0;
   let s0 := { s with resp := .none };
   let s1 := s0.maskWrite (R.AUD_V_CTRL n) (v ||| 0x80000000);
   (s.pclkOn = true) ∧ (n.val < 32) ∧ (s.flag (F.AUD_V_CTRL_EN n) = false) ∧ (s1.get (F.AUD_V_CTRL_WAVE n) < 5)) ∧
  (let n : SourceNo := 31;
   let s : State := up;
   let v : Word := BitVec.ofNat 32 (5 * 2 ^ (F.AUD_V_CTRL_WAVE 0).lo);
   let s0 := { s with resp := .none };
   let s1 := s0.maskWrite (R.AUD_V_CTRL n) (v ||| 0x80000000);
   let base := (s.rd (R.AUD_V_ADDR n)).toNat;
   (s.pclkOn = true) ∧ (n.val < 32) ∧ (s.flag (F.AUD_V_CTRL_EN n) = false) ∧ (s1.get (F.AUD_V_CTRL_WAVE n) = 5) ∧
     (s.inDram base (s.get (F.AUD_V_LEN_LEN n)) = false)) ∧
  (let n : SourceNo := 31;
   let s : State := up.on (F.AUD_V_CTRL_EN 31);
   (s.pclkOn = true) ∧ (n.val < 32) ∧ (s.flag (F.AUD_V_CTRL_EN n) = true)) := by
  refine ⟨?_, ?_, ?_, ?_, ?_, ?_, ?_⟩ <;> decide +kernel

theorem test_meets_Pragus :
  (let s : State := (up.on F.PRG_CTRL_TXEN).on F.PRG_CTRL_RXEN;
   let n : PortNo := 1;
   let bytes : List Byte := frm 1 0;
   let valid := bytes.length = 32 ∧ bytes.take 2 = [0xD2, 0x4B] ∧ leNat (bytes.drop 28) = (crc32c (bytes.take 28)).toNat;
   let got := leNat ((bytes.drop 2).take 2);
   let on := s.linkMode = true ∧ s.flag F.PRG_CTRL_RXEN = true;
   (s.linkMode = true) ∧ (s.flag F.PRG_CTRL_TXEN = true) ∧ on ∧ valid ∧ (got = (s.get (F.PRG_CH_RXSEQ_SEQ n) + 1) %
     65536)) ∧
  (let s : State := up.off F.PRG_CTRL_TXEN;
   (s.flag F.PRG_CTRL_TXEN = false)) ∧
  (let n : PortNo := 1;
   let s : State := (up.on F.PRG_CTRL_TXEN).on F.PRG_CTRL_RXEN;
   let bytes : List Byte := frm 3 0;
   let valid := bytes.length = 32 ∧ bytes.take 2 = [0xD2, 0x4B] ∧ leNat (bytes.drop 28) = (crc32c (bytes.take 28)).toNat;
   let got := leNat ((bytes.drop 2).take 2);
   let on := s.linkMode = true ∧ s.flag F.PRG_CTRL_RXEN = true;
   on ∧ valid ∧ (got ≠ (s.get (F.PRG_CH_RXSEQ_SEQ n) + 1) % 65536) ∧ ((bytes.getD 4 0).getLsbD 6 = false)) ∧
  (let s : State := (up.on F.PRG_CTRL_TXEN).on F.PRG_CTRL_RXEN;
   let bytes : List Byte := frm 1 5;
   let valid := bytes.length = 32 ∧ bytes.take 2 = [0xD2, 0x4B] ∧ leNat (bytes.drop 28) = (crc32c (bytes.take 28)).toNat;
   let on := s.linkMode = true ∧ s.flag F.PRG_CTRL_RXEN = true;
   on ∧ (bytes.length = 32) ∧ (¬ valid)) ∧
  (let s : State := { up with now := 24, prg := { up.prg with supRun := true } };
   (s.linkMode = true) ∧ (s.prg.supRun = true) ∧ (s.prg.supAt ≠ s.now)) ∧
  (let s : State := { up with prg := { up.prg with supRun := true, supAt := up.now } };
   (s.prg.supAt = s.now)) := by
  refine ⟨?_, ?_, ?_, ?_, ?_, ?_⟩ <;> decide +kernel

/-- The PCIe link of `up` is up. -/
def linked : State := up.on F.PCIE_STATUS_LINKUP

/-- The host reaches its windows. -/
def hostLive (s : State) : Prop :=
  s.flag F.PCIE_STATUS_LINKUP = true ∧ s.pcie.d3hot = false ∧ s.waiting.any isHost = false

theorem test_meets_Pcie :
  (let speed : BitVec 2 := 3;
   let s : State := (up.on F.PCIE_STATUS_STRAP).on F.PCIE_CTRL_LINKEN;
   let up := s.flag F.PCIE_STATUS_LINKUP;
   (s.flag F.PCIE_STATUS_STRAP = true) ∧ (s.flag F.PCIE_CTRL_LINKEN = true) ∧ (s.pcieMode = true) ∧ (up = false) ∧ (speed
     ≠ 0)) ∧
  (let v : Word := 0;
   let d := 0x80000000 + v.toNat / 4 * 4;
   let vec : BitVec 5 := 31;
   let s : State := up.on F.PCIE_STATUS_LINKUP;
   let up := s.flag F.PCIE_STATUS_LINKUP;
   let may := up = true ∧ s.pcie.msixEn = true ∧ s.pcie.maskAll = false ∧ s.pcie.d3hot = false ∧ bitOf (s.msixWord (4 *
     vec.toNat + 3)) 0 = false;
   (up = true) ∧ (s.pclkOn = true) ∧ (s.inDram d 4 = false) ∧ (¬ may)) ∧
  (let off : BitVec 26 := 0x7FFFFF;
   let bs : List Byte := [0, 0, 0, 0];
   let o := off.toNat / 4 * 4;
   let a := 0x10000000 + o;
   let s : State := linked.put (F.STORE_OWNER_OWNER 15) 0x16;
   hostLive s ∧ (o < 0x800000) ∧ (s.ownerPort 0x16 a = .ok a) ∧ (s.eccBytes a 4 = (bs, .clean)) ∧ (s.undef = [])) ∧
  (let off : BitVec 26 := 0x7FFFFF;
   let s : State := linked.put (F.STORE_OWNER_OWNER 15) 2;
   let o := off.toNat / 4 * 4;
   let a := 0x10000000 + o;
   hostLive s ∧ (o < 0x800000) ∧ (s.ownerPort 0x16 a = .bus 2) ∧ (s.flag F.PCIE_STATUS_ERR = false)) ∧
  (let off : BitVec 26 := 0x7FFFFF;
   let s : State := (linked.put (F.STORE_OWNER_OWNER 15) 0x16).on (F.STORE_OWNER_BUSY 15);
   let o := off.toNat / 4 * 4;
   let a := 0x10000000 + o;
   hostLive s ∧ (o < 0x800000) ∧ (s.ownerPort 0x16 a = .held 15) ∧ (s.blocked = false)) ∧
  (hostLive linked ∧
   (∀ o ∈ [0x1170000, 0x117FFFC], 0x1000000 ≤ o ∧ o < 0x1180000 ∧ 0x1170000 ≤ o) ∧
   ((R.HEAD_EVT_STATUS 3, 0, 0x3FFF) ∈ plainRegs ∧ (R.ETH_CNT_DROP 1, 0xFFFFFFFF) ∈ readClearRegs ∧
     ∀ r ∈ [R.HEAD_EVT_STATUS 3, R.ETH_CNT_DROP 1],
       (BitVec.ofNat 26 (r - 0x40000000 + 0x1000000)).toNat / 4 * 4 = r - 0x40000000 + 0x1000000) ∧
   (∀ o ∈ [0x3FF0000, 0x3FF01FC], 0x3FF0000 ≤ o ∧ o < 0x3FF0200) ∧
   (∀ o ∈ [0x800000, 0xFFFFFC, 0x1180000, 0x3FEFFFC, 0x3FF0200, 0x3FF0FFC, 0x3FF1008, 0x3FFFFFC],
     0x800000 ≤ o ∧ o < 0x1000000 ∨ 0x1180000 ≤ o ∧ o < 0x3FF0000 ∨ 0x3FF0200 ≤ o ∧ o < 0x3FF1000 ∨ 0x3FF1008 ≤ o)) ∧
  (let s : State := { linked with pcie := { up.pcie with d3hot := true } };
   (s.flag F.PCIE_STATUS_LINKUP = true) ∧ (s.pcie.d3hot = true) ∧ (s.waiting.any isHost = false)) ∧
  (let bs : List Byte := [0, 0, 0, 0];
   let v : Word := 0x1FFFFFFC;
   let d := 0x80000000 + v.toNat / 4 * 4;
   let s : State := { up.on F.PCIE_STATUS_LINKUP with boot := { up.boot with dramBytes := 0x20000000, dramOk := true } };
   let up := s.flag F.PCIE_STATUS_LINKUP;
   (up = true) ∧ (s.pcie.d3hot = false) ∧ (s.inDram d 4 = true) ∧ (s.eccBytes d 4 = (bs, .clean))) ∧
  (let vec : BitVec 5 := 31;
   let s : State := { up.on F.PCIE_STATUS_LINKUP with
     pcie := { up.pcie with msixEn := true, pend := 0x80000000, table := [(127, 0)] } };
   let up := s.flag F.PCIE_STATUS_LINKUP;
   let may := up = true ∧ s.pcie.msixEn = true ∧ s.pcie.maskAll = false ∧ s.pcie.d3hot = false ∧ bitOf (s.msixWord (4 *
     vec.toNat + 3)) 0 = false;
   may ∧ (bitOf s.pcie.pend vec.toNat = true)) := by
  unfold hostLive; refine ⟨?_, ?_, ?_, ?_, ?_, ?_, ?_, ?_, ?_⟩ <;> decide +kernel

theorem test_meets_EthernetAndPtp :
  (let n : PortNo := 1;
   let s : State := eth 0x8000000E;
   let v : Word := 1;
   let b : List Byte := ws [0x10001001, 0x8000000E, 0, 0];
   let d : List Byte := List.replicate 14 0;
   let k : Nat := 0x10000004;
   let e := s.ethSt n;
   let ta := (s.rd (R.ETH_TXBASE n)).toNat / 16 * 16 + 16 * s.get (F.ETH_TXHEAD_HEAD n);
   let dw := descWords b;
   let len := bitsOf dw.2.1 0 16;
   let sends := s.waiting.any (isMacTx n) = false ∧ s.linkOn = true ∧ s.cc.halted = false ∧
     s.flag (F.ETH_STATUS_TXRUN n) = true ∧ e.poll = true ∧ e.pause ≤
     s.now;
   let bytes : List Byte := List.replicate 60 7;
   let gets := s.waiting.any (isMacRx n) = false ∧ s.linkOn = true ∧ s.flag (F.ETH_STATUS_RXRUN n) = true;
   let whole := 60 ≤ bytes.length ∧ bytes.length ≤ 1518;
   (s.pclkOn = true) ∧ (bitOf v 0 = true) ∧ (s.flag (F.ETH_STATUS_TXRUN n) = true) ∧ sends ∧ (s.blockRead 0x15 5 ta 16 =
     (some (b, .clean), s)) ∧ (bitOf dw.2.1 31 = true) ∧ (14 ≤ len) ∧ (len ≤ 1518) ∧ (s.blockRead 0x15 5 (dw.1.toNat / 4
     * 4) len = (some (d, .clean), s)) ∧ (s.blockPort 0x15 (ta + 4) 12 = .ok k) ∧ gets ∧ whole ∧ (s.flag (F.ETH_MDIO_BUSY
     n) = false)) ∧
  (let n : PortNo := 1;
   let s : State := eth 14;
   let b : List Byte := ws [0x10001001, 14, 0, 0];
   let e := s.ethSt n;
   let ta := (s.rd (R.ETH_TXBASE n)).toNat / 16 * 16 + 16 * s.get (F.ETH_TXHEAD_HEAD n);
   let dw := descWords b;
   let sends := s.waiting.any (isMacTx n) = false ∧ s.linkOn = true ∧ s.cc.halted = false ∧
     s.flag (F.ETH_STATUS_TXRUN n) = true ∧ e.poll = true ∧ e.pause ≤
     s.now;
   sends ∧ (s.blockRead 0x15 5 ta 16 = (some (b, .clean), s)) ∧ (bitOf dw.2.1 31 = false)) ∧
  (let n : PortNo := 1;
   let bytes : List Byte := List.replicate 60 7;
   let s : State := (eth 0).off (F.ETH_CTRL_PROMISC 1);
   let gets := s.waiting.any (isMacRx n) = false ∧ s.linkOn = true ∧ s.flag (F.ETH_STATUS_RXRUN n) = true;
   let whole := 60 ≤ bytes.length ∧ bytes.length ≤ 1518;
   let passes := s.destOk n bytes && s.vlanOk n bytes && s.etypeOk n bytes;
   gets ∧ whole ∧ (s.isPause n bytes = false) ∧ (passes = false)) ∧
  (let n : PortNo := 1;
   let bytes : List Byte := List.replicate 60 7;
   let kb : Nat := 0x10082000;
   let s : State := eth 0x8000003C;
   let b : List Byte := ws [0x10082002, 0x8000003C, 0, 0];
   let k : Nat := 0x10080004;
   let ra := (s.rd (R.ETH_RXBASE n)).toNat / 16 * 16 + 16 * s.get (F.ETH_RXHEAD_HEAD n);
   let dw := descWords b;
   let len := bitsOf dw.2.1 0 16;
   let gets := s.waiting.any (isMacRx n) = false ∧ s.linkOn = true ∧ s.flag (F.ETH_STATUS_RXRUN n) = true;
   let whole := 60 ≤ bytes.length ∧ bytes.length ≤ 1518;
   let passes := s.destOk n bytes && s.vlanOk n bytes && s.etypeOk n bytes;
   gets ∧ whole ∧ (s.isPause n bytes = false) ∧ (passes = true) ∧ (s.blockRead 0x15 5 ra 16 = (some (b, .clean), s)) ∧
     (bitOf dw.2.1 31 = true) ∧ (bytes.length ≤ len) ∧ (s.blockPort 0x15 (dw.1.toNat / 4 * 4) bytes.length = .ok kb) ∧
     (s.blockPort 0x15 (ra + 4) 12 = .ok k) ∧ ((k + 12 ≤ kb ∨ kb + bytes.length ≤ k))) ∧
  (let n : PortNo := 1;
   let s : State := up.on (F.ETH_MDIO_BUSY 1);
   (s.pclkOn = true) ∧ (s.flag (F.ETH_MDIO_BUSY n) = true)) ∧
  (let m : Master := .core;
   let s : State := up;
   (s.pclkOn = true) ∧ (m ≠ .debug)) ∧
  (let s : State := { up with ptp := { up.ptp with sec := 3, ns := 999999999 } };
   (s.pclkOn = true) ∧ (3 ≤ s.ptp.sec) ∧ (s.ptp.sec < 2 ^ 47) ∧ (s.ptp.ns < 1000000000) ∧
     (s.pending = []) ∧ (s.flag F.WDT_CTRL_EN = false)) ∧
  (let n : PortNo := 1;
   let s : State := eth 0;
   let gets := s.waiting.any (isMacRx n) = false ∧ s.linkOn = true ∧ s.flag (F.ETH_STATUS_RXRUN n) = true;
   gets ∧ (∀ l ∈ [59, 1519], (List.replicate l (0 : Byte)).length < 60 ∨ 1518 < (List.replicate l (0 : Byte)).length)) := by
  refine ⟨?_, ?_, ?_, ?_, ?_, ?_, ?_, ?_⟩ <;> decide +kernel

theorem test_meets_SerialPorts :
  (let s : State := ser;
   let m : Master := .core;
   (s.pclkOn = true) ∧ (m ≠ .debug) ∧ (s.flag F.QSPI_STATUS_BUSY = true)) ∧
  (let n : PortNo := 1;
   let s : State := ser;
   let moves := s.linkOn = true ∧ s.cc.halted = false;
   let c : Word := 0x101;
   let cs : List Word := [0x102];
   let u := s.uartSt n;
   let p := s.spiSt n;
   let ibusy := s.flag (F.I2C_STATUS_BUSY n);
   let q := s.i2cSt n;
   (s.pclkOn = true) ∧ moves ∧ (s.serMoves q.txDone = true) ∧ (u.rxAt ≠ some s.now) ∧
     (s.stage (s.get (F.PIN_SEL_PIN (96 + 2 * n))) =
     none) ∧ (s.stage (s.get (F.PIN_SEL_PIN (100 + n))) = none) ∧ (s.flag (F.UART_CTRL_EN n) = true) ∧
       (s.fnSees (96 + 2 * n) = true) ∧ (s.get
     (F.UART_CTRL_PARITY n) = 0) ∧ (s.flag (F.UART_CTRL_BITS7 n) = false) ∧ (s.flag (F.UART_CTRL_RTSCTS n) = false) ∧
     (u.tx = c :: cs) ∧ (s.get (F.UART_IDLE_CHARS n) ≠ 0) ∧ (s.flag (F.SPI_CTRL_EN n) = true) ∧ (s.fnSees (100 + n) =
     true) ∧ (p.tx = c :: cs) ∧ ((ibusy = true ∨ s.flag (F.I2C_CTRL_EN n) = false)) ∧ (ibusy = true) ∧ (s.i2cRouted n =
     true) ∧ (s.flag (F.I2C_CMD_READ n) = true) ∧ (q.rx = []) ∧ (s.get (F.I2C_CMD_LEN n) ≤ 16) ∧ (s.get (F.I2C_TOUT_TOUT
     n) ≠ 0)) ∧
  (let n : PortNo := 1;
   let v : Word := 0x80000010;
   let s : State := ser.off (F.I2C_STATUS_BUSY 1);
   let ibusy := s.flag (F.I2C_STATUS_BUSY n);
   let len := v.toNat % 32;
   (s.pclkOn = true) ∧ (ibusy = false) ∧ (s.flag (F.I2C_CTRL_EN n) = true) ∧ (1 ≤ len) ∧ (len ≤ 16)) ∧
  (let s : State := ser.off F.QSPI_STATUS_BUSY;
   let v : Word := 256;
   (s.pclkOn = true) ∧ (s.flag F.QSPI_STATUS_BUSY = false) ∧ (v.toNat % 512 ≤ 256)) ∧
  (let rx : List Byte := [5, 6];
   let s : State := ser;
   (s.pclkOn = true) ∧ (s.flag F.QSPI_STATUS_BUSY = true) ∧ (s.flag F.QSPI_STATUS_HELD = false) ∧ (s.flag
     F.QSPI_CMD_WRITE = false) ∧ (rx.length ≤ 256)) ∧
  (let s : State := ser.on F.QSPI_STATUS_HELD;
   (s.pclkOn = true) ∧ (s.flag F.QSPI_STATUS_HELD = true) ∧ (s.seqReads = false)) ∧
  (let s : State := ser.on F.QSPI_CMD_WRITE;
   (s.pclkOn = true) ∧ (s.flag F.QSPI_STATUS_BUSY = true) ∧ (s.flag F.QSPI_STATUS_HELD = false) ∧ (s.flag
     F.QSPI_CMD_WRITE = true)) ∧
  (let n : PortNo := 1;
   let s : State := { ((ser.on F.DBG_FREEZE_SER).setUart 1 { txDone := true, rxDone := true, rxAt := some ser.now }).setSpi 1
     { txDone := true } |>.setI2c 1 { txDone := true } with cc := { up.cc with halted := true } };
   (s.pclkOn = true) ∧ (s.serFrozen = true) ∧ ((s.uartSt n).rxDone = true) ∧ ((s.uartSt n).txDone = true) ∧ ((s.spiSt
     n).txDone = true) ∧ ((s.i2cSt n).txDone = true) ∧ ((s.uartSt n).rxAt = some s.now)) := by
  refine ⟨?_, ?_, ?_, ?_, ?_, ?_, ?_, ?_⟩ <;> decide +kernel

theorem test_meets_PinOutputs :
  (let s : State := up.wr (R.PIN_P_OE 3) 0xFFFFFF;
   let m : Master := .core;
   (s.pclkOn = true) ∧ (s.pclkOn = true ∧ m ≠ .debug)) ∧
  (let k : BitVec 2 := 3;
   let s : State := up.wr (R.PIN_P_OE 3) 0xFFFFFF;
   let i : Nat := 23;
   (i < 24 ∧ s.pins.latch = none ∧ s.tap.ir ≠ 0 ∧ s.bankUp (pinBank (24 * k.toNat + i)) = true ∧ s.flag (F.PIN_CFG_ANA
     (24 * k.toNat + i)) = false ∧ s.flag (F.PIN_CFG_OD (24 * k.toNat + i)) = false ∧ bitOf (s.rd (R.PIN_P_OE k.toNat)) i
     = true ∧ (∀ f, f < 60 → s.fnOn f (24 * k.toNat + i) = false)) ∧ (i < 24)) ∧
  (let k : BitVec 2 := 3;
   let i : Nat := 23;
   let s : State := up.on (F.PIN_CFG_ANA 95);
   (s.flag (F.PIN_CFG_ANA (24 * k.toNat + i)) = true)) ∧
  (∀ e ∈ [0, 1, 2, 3], let s : State := { (up.on (F.PIN_EVT_EN 7)).put (F.PIN_EVT_EDGE 7) e with
     pins := { up.pins with evtInit := 0x80 } };
   (s.lineOn 7 = true) ∧ (natBit s.pins.evtInit 7 = true)) := by
  refine ⟨?_, ?_, ?_, ?_⟩ <;> decide +kernel

theorem test_meets_PinsAndEvents :
  (let s : State := up;
   let v : Word := 95;
   let f : Nat := 59;
   (s.pclkOn = true) ∧ (f < 104) ∧ ((f < 60 ∨ 64 ≤ f)) ∧ (v.toNat % 128 < 96)) ∧
  (let s : State := up;
   let f : Nat := 103;
   let v : Word := 96;
   (s.pclkOn = true) ∧ (f < 104) ∧ ((f < 60 ∨ 64 ≤ f)) ∧ (96 ≤ v.toNat % 128)) ∧
  (up.runnable .cc = true ∧ State.reset.runnable .cc = false ∧
   (∀ p ∈ [(0x78, 2), (0xFFFC, 2), (0x28, 1), (0x29, 0)], p.1 % 2 ^ p.2 = 0 ∧ (0x78 ≤ p.1 ∨ p.2 < 2)) ∧
   (∀ p ∈ [(0x7A, 2), (0x29, 1)], p.1 % 2 ^ p.2 ≠ 0)) ∧
  (let n : BitVec 3 := 7;
   let s : State := up.on (F.PIN_EVT_EN 7) |>.put (F.PIN_EVT_EDGE 7) 0 |>.off (F.PIN_CFG_ANA 7);
   let p := s.linePin n.toNat;
   (s.flag (F.PIN_EVT_EN n.toNat) = true) ∧ (s.pins.latch = none) ∧ (s.bankUp (pinBank p) = true) ∧ (s.flag
     (F.PIN_CFG_ANA p) = false) ∧ (s.drivers p = []) ∧ (s.tap.ir ≠ 0) ∧ (s.get (F.PIN_EVT_EDGE n.toNat) = 0)) ∧
  (let n : BitVec 3 := 7;
   let s : State := up.on (F.PIN_EVT_EN 7) |>.put (F.PIN_EVT_EDGE 7) 1 |>.off (F.PIN_CFG_ANA 7);
   let p := s.linePin n.toNat;
   (s.flag (F.PIN_EVT_EN n.toNat) = true) ∧ (s.pins.latch = none) ∧ (s.bankUp (pinBank p) = true) ∧ (s.flag
     (F.PIN_CFG_ANA p) = false) ∧ (s.drivers p = []) ∧ (s.tap.ir ≠ 0) ∧ (s.get (F.PIN_EVT_EDGE n.toNat) = 1)) ∧
  (let k : BitVec 2 := 2;
   (k ≠ 3)) ∧
  (let code : BitVec 2 := 2;
   ((code = 1 ∨ code = 2))) ∧
  (let code : BitVec 2 := 3;
   ((code = 0 ∨ code = 3))) := by
  refine ⟨?_, ?_, ?_, ?_, ?_, ?_, ?_, ?_⟩ <;> decide +kernel

theorem test_meets_TapAndFuses :
  (let code : BitVec 5 := 31;
   (code ≠ 0) ∧ (code ≠ 1) ∧ (code ≠ 2) ∧ (code ≠ 8)) ∧
  (let s : State := up;
   let i : Byte := 7;
   let free := s.TapFree;
   let v : Word := 0x5A000003;
   let attached := s.flag F.DBG_CTRL_ATTACH;
   let key := bitsOf v 24 8 = 0x5A;
   let kh := bitOf v 0;
   let ar := bitOf v 1;
   let kv := s.flag F.CFG_FUSE_KEYV;
   let may := attached = true ∧ s.flag F.DBG_FUSE_STATUS_BUSY = false ∧ s.mode.emul = none ∧ ¬ (kh = true ∧ kv = true) ∧
     (ar = true → kv = true ∨ kh = true);
   free ∧ (i ≠ 11) ∧ (i ≠ 5) ∧ (i = 7) ∧ key ∧ (¬ may)) ∧
  (let s : State := up;
   let m : Master := .core;
   (s.pclkOn = true) ∧ (m = .core)) ∧
  (let s : State := (inMode 4).off F.SYS_CLK_STATUS_PCLKLOCK;
   ((s.modeNow = 4 ∨ s.modeNow = 0)) ∧ (s.pclkOn = false)) ∧
  (let s : State := State.reset;
   (s.modeNow ≠ 4) ∧ (s.modeNow ≠ 0) ∧ (s.pclkOn = false) ∧ (s.tap.run = none)) ∧
  (let s : State := { State.reset with tap := { State.reset.tap with run := some (true, 3, 4) } };
   (s.modeNow ≠ 4) ∧ (s.modeNow ≠ 0) ∧ (s.pclkOn = false) ∧ (s.tap.run.isSome = true)) ∧
  (let v : Word := 0x5A000003;
   let s : State := up.on F.DBG_CTRL_ATTACH;
   let free := s.TapFree;
   let attached := s.flag F.DBG_CTRL_ATTACH;
   let key := bitsOf v 24 8 = 0x5A;
   let kh := bitOf v 0;
   let ar := bitOf v 1;
   let kv := s.flag F.CFG_FUSE_KEYV;
   let may := attached = true ∧ s.flag F.DBG_FUSE_STATUS_BUSY = false ∧ s.mode.emul = none ∧ ¬ (kh = true ∧ kv = true) ∧
     (ar = true → kv = true ∨ kh = true);
   free ∧ key ∧ may) ∧
  (let s : State := up;
   let v : Word := 0x5B000001;
   let free := s.TapFree;
   let key := bitsOf v 24 8 = 0x5A;
   free ∧ (¬ key)) ∧
  (let k : Bool := true;
   let a : Bool := true;
   let s : State := { up with dbg := { up.dbg with fuse := some (true, true) } };
   (s.dbg.fuse = some (k, a)) ∧ (s.fuses.keyv = false)) := by
  unfold State.TapFree; refine ⟨?_, ?_, ?_, ?_, ?_, ?_, ?_, ?_, ?_⟩ <;> decide +kernel

theorem test_meets_DebugControl :
  (let v : Word := 0;
   let s : State := up;
   let free := s.TapFree;
   let attached := s.flag F.DBG_CTRL_ATTACH;
   let u : UnitId := 1;
   let i : Instr := .debugHalt true u;
   free ∧ (attached = false) ∧ (bitOf v 24 = false) ∧ (i = .debugHalt true u ∨ i = .debugResume true u ∨ i = .debugStep
     true u) ∧ (s.dbg.access = none)) ∧
  (let v : Word := 0;
   let s : State := up.on F.DBG_CTRL_ATTACH;
   let free := s.TapFree;
   let attached := s.flag F.DBG_CTRL_ATTACH;
   let u : UnitId := 9;
   let i : Instr := .debugStep false u;
   let x := s.cc;
   free ∧ (attached = true) ∧ (bitOf v 24 = false) ∧ (s.mode.emul = none) ∧ (s.boot.phase ≠ .heldAtReset) ∧ (s.unit?
     u.toNat = none) ∧ (i = .debugHalt false u ∨ i = .debugResume false u ∨ i = .debugStep false u) ∧ (x.halted = false)
     ∧ (x.asleep = false) ∧ (x.parked = false)) ∧
  (let s : State := (up.on F.DBG_CTRL_ATTACH).modCore .cc fun x => { x with asleep := true };
   s.TapFree ∧ (s.flag F.DBG_CTRL_ATTACH = true) ∧ (s.cc.halted = false) ∧ (s.cc.asleep = true)) ∧
  (let s : State := (up.wr R.DBG_REG_IDX 0xC0000001).modCore .cc fun x => { x with halted := true, status := 0 };
   let idx := s.rd R.DBG_REG_IDX;
   s.TapFree ∧ (s.dbgCtx = .cc) ∧ (s.cc.halted = true) ∧ (bitOf idx 30 = true) ∧ (bitsOf idx 0 5 = 1)) ∧
  (let u : UnitId := 1;
   let s : State := up.on F.DBG_CTRL_ATTACH;
   let i : Instr := .debugStep true u;
   let free := s.TapFree;
   let attached := s.flag F.DBG_CTRL_ATTACH;
   let x := s.cc;
   free ∧ (attached = true) ∧ (x.halted = false) ∧ (i = .debugResume true u ∨ i = .debugStep true u)) ∧
  (let c : Ctx := .cc;
   let why : Nat := 4;
   let s : State := up.modCore .cc fun x => { x with haltReq := some 4 };
   ((s.core c).haltReq = some why) ∧ ((s.core c).stalled = none)) ∧
  (let s : State := (up.on F.DBG_CTRL_ATTACH).modCore .cc fun x => { x with halted := true };
   let free := s.TapFree;
   let attached := s.flag F.DBG_CTRL_ATTACH;
   let x := s.cc;
   let quiet := x.haltReq = none ∧ x.asleep = false ∧ s.boot.phase ≠ .heldAtReset;
   free ∧ (attached = true) ∧ (x.halted = true) ∧ quiet) ∧
  (let rd : RegNo := 3;
   let rs : RegNo := 6;
   let imm : BitVec 16 := 0xFFFF;
   let s : State := ((up.on F.DBG_CTRL_ATTACH).modCore .cc fun x => { x with
     halted := true }).putRaw 0x100000 (leBytes 4 (encodeInsn (.addi .cc 3 6 0xFFFF)).toNat);
   let free := s.TapFree;
   let attached := s.flag F.DBG_CTRL_ATTACH;
   let x := s.cc;
   let quiet := x.haltReq = none ∧ x.asleep = false ∧ s.boot.phase ≠ .heldAtReset;
   free ∧ (attached = true) ∧ (x.halted = true) ∧ quiet ∧ (x.started = true) ∧ (x.parked = false) ∧ (x.lockup = false) ∧
     (x.stalled = none) ∧ (s.clocked .cc = true) ∧ (fetchable .cc x.pc = true) ∧ (s.flag F.DBG_CTRL_STEPIE = false) ∧ ((∀
     k, k < 4 → s.flag (F.DBG_CMP_CTRL_EN k) = false)) ∧ ((s.eccBytes x.pc.toNat 4).2 = .clean) ∧ (decodeInsn .cc
     (s.fetchWord .cc) = some (.addi .cc rd rs imm))) ∧
  (let c : Ctx := .cc;
   let s : State := ((up.wr R.DBG_REG_IDX 3).on ⟨R.DBG_REG_IDX, 31, 1⟩).modCore .cc fun x => { x with halted := true };
   let free := s.TapFree;
   let idx := s.rd R.DBG_REG_IDX;
   free ∧ (s.dbgCtx = c) ∧ ((s.core c).halted = true) ∧ (bitOf idx 30 = false)) ∧
  (let c : Ctx := .cc;
   let v : Word := 0;
   let s : State := (up.wr R.DBG_REG_IDX 3).on ⟨R.DBG_REG_IDX, 31, 1⟩;
   let i : Instr := .dbgRegRead;
   let free := s.TapFree;
   free ∧ (s.dbgCtx = c) ∧ ((s.core c).halted = false) ∧ (i = .dbgRegRead ∨ i = .dbgRegWrite v)) ∧
  (let s : State := { (up.wr R.DBG_MEM_ADDR 0x100000).on F.DBG_MEM_CTRL_AINC with
    dbg := { up.dbg with access := some none } };
   let bs : List Byte := [0, 0, 0, 0];
   let addr := (s.rd R.DBG_MEM_ADDR).toNat;
   (s.dbg.access = some none) ∧ (s.get F.DBG_MEM_CTRL_SPACE = 0) ∧ (s.mapRead .debug 7 0x17 2 addr 4 = (some (bs,
     .clean), s)) ∧ (s.flag F.DBG_MEM_CTRL_AINC = true)) ∧
  (let w : Word := 0xCAFE;
   let key : Nat := 0x100000;
   let s : State := { up.wr R.DBG_MEM_ADDR 0x100000 with dbg := { up.dbg with access := some (some 0xCAFE) } };
   let addr := (s.rd R.DBG_MEM_ADDR).toNat;
   (s.dbg.access = some (some w)) ∧ (s.get F.DBG_MEM_CTRL_SPACE = 0) ∧ (s.mapWhere .debug addr 4 true = .mem key) ∧
     (s.dbg.access.isSome = true)) ∧
  (let w : Word := 0xCAFE;
   let s : State := { up.wr R.DBG_MEM_ADDR 0x00FF0000 with dbg := { up.dbg with access := some (some 0xCAFE) } };
   let addr := (s.rd R.DBG_MEM_ADDR).toNat;
   (s.dbg.access = some (some w)) ∧ (s.get F.DBG_MEM_CTRL_SPACE = 0) ∧ (s.mapWhere .debug addr 4 true = .refused 1 0 0)) := by
  unfold State.TapFree; refine ⟨?_, ?_, ?_, ?_, ?_, ?_, ?_, ?_, ?_, ?_, ?_, ?_, ?_⟩ <;> decide +kernel

theorem test_meets_CommandQueue :
  (let c : Instr := .tapReset;
   let cs : List Instr := [.idcode];
   let s : State := { up with pending := [.tapReset, .idcode] };
   (s.pending = c :: cs)) ∧
  (let s : State := up;
   (s.pending = []) ∧ (s.flag F.WDT_CTRL_EN = false)) := by
  refine ⟨?_, ?_⟩ <;> decide +kernel

end Sys2Proof.Tests
end

section
/-! SUPPORT. The exceptions of a fetch (R47, R83, R85, R126): the issue of an instruction word, said once with the PC inside
the instruction space and once with it outside, and what each of the three commands makes of it. -/

open Sys2Proof Sys2Proof.Machine

namespace Sys2Proof.Machine

/-! ### The issue of a word -/

/-- With no debugger's comparators before it, a word that is fetched does its work on the context as it stands at its issue, or
raises exception 1 there when it is no legal instruction (R126). -/
theorem State.issueWord_of_fetchable {s : State} {c : Ctx} (hrun : s.runnable c = true)
    (hin : fetchable c (s.core c).pc = true) (hdet : s.flag F.DBG_CTRL_ATTACH = false) (w : Word) (legal : Bool)
    (f : Nat → State → State) :
    s.issueWord c w legal f =
      if legal then f (s.issueTime c) (s.found c) else (s.found c).raise c (s.issueTime c) 1 { num := 1 } := by
  have hfound : (s.found c).compare 0 c (s.core c).pc.toNat (leBytes 4 w.toNat) = (none, s.found c) :=
    State.compare_detached _ _ _ _ _ ((State.flag_congr (State.setCore_regs _ _ _) _).trans hdet)
  unfold State.found State.atIssue State.issueTime at hfound
  simp only [State.issueWord, hrun, hin, Bool.not_true, Bool.false_eq_true, if_false, hfound]
  rfl

/-- A word at a PC outside the instruction space is not looked at: exception 6 is raised in its place (R85). -/
theorem State.issueWord_of_not_fetchable {s : State} {c : Ctx} (hrun : s.runnable c = true)
    (hout : fetchable c (s.core c).pc = false) (w : Word) (legal : Bool) (f : Nat → State → State) :
    s.issueWord c w legal f =
      (s.found c).raise c (s.issueTime c) 1 { num := 6, sub := 4, acc := 1, eaddr := (s.core c).pc } := by
  simp only [State.issueWord, hrun, hout, Bool.not_true, Bool.not_false, Bool.false_eq_true, if_false, if_true]
  rfl

/-! ### The context as it is found -/

@[simp] theorem State.core_found (s : State) (c : Ctx) : (s.found c).core c = s.atIssue c :=
  State.core_setCore_same _ _ _

@[simp] theorem State.physOf_found (s : State) (c : Ctx) (e : Nat) : (s.found c).physOf e = s.physOf e := by
  simp [State.physOf, State.found]

/-- The issue moves neither an engine nor its active half, so the word is fetched where it was (R84). -/
@[simp] theorem State.fetchKey_found (s : State) (c : Ctx) (pc : Word) : (s.found c).fetchKey c pc = s.fetchKey c pc := by
  cases c with
  | cc => rfl
  | se e =>
    have hhalf : ((s.found (.se e)).engine e.val).actHalf = (s.engine e.val).actHalf :=
      (congrArg CoreSt.actHalf (State.core_found s (.se e))).trans (State.atIssue_actHalf s (.se e))
    simp only [State.fetchKey, State.physOf_found, hhalf]

/-! ### The three commands -/

/-- A word that decodes to no instruction raises exception 1 (R83, R126). -/
theorem illegalInstruction_raises {s : State} {c : Ctx} {w : Word} (hrun : s.runnable c = true)
    (hin : fetchable c (s.core c).pc = true) (hdet : s.flag F.DBG_CTRL_ATTACH = false) (hw : decodeInsn c w = none) :
    Raises (.illegalInstruction c w) s c { num := 1 } := by
  refine ⟨s.issueTime c, 1, ?_⟩
  change execIllegalInstruction c w s = _
  simp [execIllegalInstruction, hw, State.issueWord_of_fetchable hrun hin hdet]

/-- An uncorrectable fetch is counted, and raises exception 4 with the PC as its address (R47). -/
theorem uncorrectableFetch_raises {s : State} {c : Ctx} (hrun : s.runnable c = true)
    (hin : fetchable c (s.core c).pc = true) (hdet : s.flag F.DBG_CTRL_ATTACH = false) :
    RaisesOn ((s.found c).noteEcc (readerOf c) (s.fetchKey c (s.core c).pc) (s.core c).pc.toNat .uncorr)
      (.uncorrectableFetch c) s c { num := 4, acc := 1, eaddr := (s.core c).pc } := by
  refine ⟨s.issueTime c, 1, ?_⟩
  change execUncorrectableFetch c s = _
  simp [execUncorrectableFetch, State.issueWord_of_fetchable hrun hin hdet]

/-- A fetch outside the instruction space raises exception 6 with the PC as its address (R85). -/
theorem fetchOutsideInstructionSpace_raises {s : State} {c : Ctx} (hrun : s.runnable c = true)
    (hout : fetchable c (s.core c).pc = false) :
    Raises (.fetchOutsideInstructionSpace c) s c { num := 6, sub := 4, acc := 1, eaddr := (s.core c).pc } := by
  refine ⟨s.issueTime c, 1, ?_⟩
  change execFetchOutsideInstructionSpace c s = _
  simp [execFetchOutsideInstructionSpace, hout, State.issueWord_of_not_fetchable hrun hout]

/-! ### The instruction spaces -/

/-- An engine's instruction space ends at 0x2000 (R85). -/
theorem not_fetchable_se_iff (e : EngineNo) (pc : Word) : fetchable (.se e) pc = false ↔ 0x2000 ≤ pc.toNat := by
  simp [fetchable]

/-- The control core's instruction space is boot ROM and its instruction memory (R85). -/
theorem not_fetchable_cc_iff (pc : Word) :
    fetchable .cc pc = false ↔ ¬ (pc.toNat < 0x10000 ∨ 0x100000 ≤ pc.toNat ∧ pc.toNat < 0x140000) :=
  decide_eq_false_iff_not

end Sys2Proof.Machine

/-- Settles O20: each command is an issue of its word, which either finds the PC inside the instruction space or not. -/
theorem fetchExceptions : Obligations.FetchExceptions := by
  intro s c w
  refine ⟨illegalInstruction_raises, uncorrectableFetch_raises, fetchOutsideInstructionSpace_raises, ?_, ?_⟩
  · rintro e rfl
    exact not_fetchable_se_iff e _
  · rintro rfl
    exact not_fetchable_cc_iff _
end

section
/-! SUPPORT. Error injection into a Store bank (R236, R241): what a register holds after a write by its access types, what error
control makes of a byte whose check bits are wrong in one bit or two, and what the bytes of a write and their check bits are. -/

open Sys2Proof Sys2Proof.Machine

namespace Sys2Proof.Machine

/-! ### A write by the access types of R5 -/

theorem State.maskWrite_of_regRow (s : State) {a : Nat} {r : RegRow} (hr : regRow a = some r) (v : Word) :
    s.maskWrite a v = s.wr a (((s.rd a &&& ~~~(w32 r.rw)) ||| (v &&& w32 r.rw)) &&& ~~~(v &&& w32 r.w1c)) := by
  simp [State.maskWrite, hr]

/-- A field all of whose bits the mask `m` has takes its value from the word `v` put in under `m`. -/
theorem bitsOf_putUnder {m : Word} {lo n : Nat} (hm : bitsOf m lo n = 2 ^ n - 1) (old v : Word) :
    bitsOf ((old &&& ~~~m) ||| (v &&& m)) lo n = bitsOf v lo n := by
  apply Nat.eq_of_testBit_eq
  intro i
  by_cases hi : i < n
  · have hbit : m.getLsbD (lo + i) = true := by
      have h := testBit_bitsOf m lo n i
      rw [hm, Nat.testBit_two_pow_sub_one] at h
      simpa [hi] using h.symm
    simp [testBit_bitsOf, hbit]
  · simp [testBit_bitsOf, hi]

/-- A field of one bit is that bit. -/
theorem bitsOf_one (w : Word) (i : Nat) : bitsOf w i 1 = (bitOf w i).toNat := by
  simp [bitsOf, bitOf, BitVec.getLsbD, Nat.toNat_testBit, Nat.shiftRight_eq_div_pow]

/-- A field of RW bits reads what was written to it, in a register without W1C bits. -/
theorem State.get_maskWrite_rw (s : State) {f : Fld} {r : RegRow} (hr : regRow f.addr = some r) (hw : r.w1c = 0)
    (hrw : bitsOf (w32 r.rw) f.lo f.width = 2 ^ f.width - 1) (v : Word) :
    (s.maskWrite f.addr v).get f = bitsOf v f.lo f.width := by
  have hkeep (x : Word) : x &&& ~~~(v &&& w32 0) = x := by
    rw [w32, BitVec.and_zero, BitVec.not_zero, BitVec.and_allOnes]
  rw [s.maskWrite_of_regRow hr, State.get, State.rd_wr_same, hw, hkeep]
  exact bitsOf_putUnder hrw (s.rd f.addr) v

/-! ### STORE_ECC_INJ -/

/-- The row of STORE_ECC_INJ: INJ, MASK and BANK are its RW bits. -/
def eccInjRow : RegRow := ⟨R.STORE_ECC_INJ, [], 0x80001F0F, 0, 0, 0⟩

theorem regRow_eccInj : regRow R.STORE_ECC_INJ = some eccInjRow := by decide +kernel

/-- Every master reaches STORE_ECC_INJ, and a write to it changes its RW bits and nothing else (R246). -/
theorem State.writeReg_eccInj {s : State} (hclk : s.pclkOn = true) (m : Master) (v : Word) :
    s.writeReg m R.STORE_ECC_INJ v = { s with resp := .none }.maskWrite R.STORE_ECC_INJ v := by
  have hreach : regReach m R.STORE_ECC_INJ = true := by cases m <;> decide
  rw [State.writeReg, hclk, hreach]
  rfl

theorem State.onlyRegsResp_maskWrite_resp (s : State) (a : Nat) (v : Word) (x : Resp) :
    OnlyRegsResp (fun b => b = a) s ({ s with resp := x }.maskWrite a v) := by
  unfold State.maskWrite
  split
  · exact ⟨rfl, fun b hb => State.rd_wr_ne _ _ hb⟩
  · exact ⟨rfl, fun _ _ => rfl⟩

/-- A write with bit 31 set arms an injection with the BANK and the MASK written (R241). -/
theorem eccInjectionArm_runs {s : State} {v : Word} (hclk : s.pclkOn = true) (hinj : bitOf v 31 = true) (m : Master) :
    Runs (.eccInjectionArm m v) s fun t => t.flag F.STORE_ECC_INJ_INJ = true ∧
      t.get F.STORE_ECC_INJ_BANK = v.toNat % 16 ∧ t.get F.STORE_ECC_INJ_MASK = v.toNat / 256 % 32 ∧
      OnlyRegsResp (fun a => a = R.STORE_ECC_INJ) s t := by
  have hget (f : Fld) (ha : f.addr = R.STORE_ECC_INJ)
      (hrw : bitsOf (w32 eccInjRow.rw) f.lo f.width = 2 ^ f.width - 1) :
      ({ s with resp := .none }.maskWrite R.STORE_ECC_INJ v).get f = bitsOf v f.lo f.width := by
    have h := State.get_maskWrite_rw { s with resp := .none } (ha ▸ regRow_eccInj) rfl hrw v
    rwa [ha] at h
  refine ⟨_, congrArg Host.Outcome.next (State.writeReg_eccInj hclk m v), ?_, ?_, ?_,
    s.onlyRegsResp_maskWrite_resp _ v .none⟩
  · have h1 : bitsOf v 31 1 = 1 := by simp [bitsOf_one, hinj]
    rw [State.flag, hget _ rfl (by decide), F.STORE_ECC_INJ_INJ, h1]
    rfl
  · rw [hget _ rfl (by decide)]
    simp [bitsOf, F.STORE_ECC_INJ_BANK]
  · rw [hget _ rfl (by decide)]
    simp [bitsOf, F.STORE_ECC_INJ_MASK, Nat.shiftRight_eq_div_pow]

/-! ### What error control makes of wrong check bits (R236) -/

theorem parity5_xor (a b : BitVec 5) : parity5 (a ^^^ b) = (parity5 a ^^ parity5 b) := by
  simp [parity5, Bool.xor_left_comm]

/-- The fifth check bit makes the parity of the data and check bits even. -/
theorem parity5_checkBits (d : Byte) :
    (parity5 (checkBits d) ^^ (parity5 ⟨d.toNat % 32, by omega⟩ ^^ parity5 ⟨d.toNat / 32 % 8, by omega⟩)) = false := by
  revert d
  decide +kernel

/-- The syndrome of check bits that are wrong in the bits of `m` is `m`. -/
theorem syndrome_checkBits_xor (d : Byte) (m : BitVec 5) : checkBits d ^^^ (checkBits d ^^^ m) = m := by
  rw [← BitVec.xor_assoc, BitVec.xor_self, BitVec.zero_xor]

/-- The parity over the 13 stored bits is that of the wrong ones. -/
theorem parity_checkBits_xor (d : Byte) (m : BitVec 5) :
    (parity5 (checkBits d ^^^ m) ^^ (parity5 ⟨d.toNat % 32, by omega⟩ ^^ parity5 ⟨d.toNat / 32 % 8, by omega⟩)) =
      parity5 m := by
  rw [parity5_xor, Bool.xor_right_comm, parity5_checkBits, Bool.false_xor]

/-- Check bits wrong in an even number of bits are found and not corrected; right ones are clean. -/
theorem judge_checkBits_xor_of_even {m : BitVec 5} (hp : parity5 m = false) (d : Byte) :
    judge d (checkBits d ^^^ m) = (d, if m.toNat % 16 = 0 then .clean else .uncorr) := by
  unfold judge
  simp only [parity_checkBits_xor, syndrome_checkBits_xor, hp]
  split <;> rfl

/-- Check bits wrong in an odd number of bits, with a syndrome that is no data bit's, are corrected with the data as stored. -/
theorem judge_checkBits_xor_of_odd {m : BitVec 5} (hp : parity5 m = true) (hle : m.toNat % 16 ≤ 12)
    (hbit : hammingBit (m.toNat % 16) = none) (d : Byte) : judge d (checkBits d ^^^ m) = (d, .corr) := by
  unfold judge
  simp only [parity_checkBits_xor, syndrome_checkBits_xor, hp, hbit, if_neg (Nat.not_lt.mpr hle)]
  split <;> rfl

/-- A MASK of one bit reads as a correctable error with the data as written (R241). -/
theorem judge_one_wrong_checkBit (d : Byte) (i : Fin 5) :
    judge d (checkBits d ^^^ BitVec.ofNat 5 (2 ^ i.val)) = (d, .corr) := by
  obtain ⟨hp, hle, hbit⟩ : parity5 (BitVec.ofNat 5 (2 ^ i.val)) = true ∧ (BitVec.ofNat 5 (2 ^ i.val)).toNat % 16 ≤ 12 ∧
      hammingBit ((BitVec.ofNat 5 (2 ^ i.val)).toNat % 16) = none := by
    revert i
    decide
  exact judge_checkBits_xor_of_odd hp hle hbit d

/-- A MASK of two bits reads as an uncorrectable error (R241). -/
theorem judge_two_wrong_checkBits (d : Byte) {i j : Fin 5} (hij : i ≠ j) :
    (judge d (checkBits d ^^^ BitVec.ofNat 5 (2 ^ i.val + 2 ^ j.val))).2 = .uncorr := by
  obtain ⟨hp, hsyn⟩ : parity5 (BitVec.ofNat 5 (2 ^ i.val + 2 ^ j.val)) = false ∧
      (BitVec.ofNat 5 (2 ^ i.val + 2 ^ j.val)).toNat % 16 ≠ 0 := by
    revert i j
    decide
  rw [judge_checkBits_xor_of_even hp, if_neg hsyn]

/-- Without a failing cell, a byte of known contents is judged by the check bits of what was written, exclusive-OR the mask held
with it (R236, R241, R244). -/
theorem State.eccByte_of_known {s : State} (hcells : s.boot.cells = []) {k : Nat} (hk : s.inUndef k = false) :
    s.eccByte k = judge (s.rawByte k) (checkBits (s.rawByte k) ^^^ tabGet (dflt 0) s.ecc k) := by
  have hcell : s.cellErr k = 0 := by simp [State.cellErr, hcells]
  have hsound (d : Byte) : judge d (checkBits d ^^^ 0) = (d, .clean) := judge_checkBits_xor_of_even (by decide) d
  have hcheck (m : BitVec 5) : m ^^^ ((0 : BitVec 13) >>> 8).setWidth 5 = m := by simp
  simp only [State.eccByte, hk, hcell, hcheck, Bool.false_eq_true, if_false]
  split
  next hm _ => exact hm ▸ (hsound _).symm
  next => simp

/-! ### The bytes of a write and their check bits -/

/-- Taking byte `k` out of the lost ranges leaves every other byte of them lost. -/
theorem any_punch (k j : Nat) (l : List (Nat × Nat)) :
    ((punch k l).any fun p => decide (p.1 ≤ j ∧ j < p.2)) =
      ((l.any fun p => decide (p.1 ≤ j ∧ j < p.2)) && decide (j ≠ k)) := by
  rw [Bool.eq_iff_iff]
  induction l with
  | nil => simp [punch]
  | cons p l ih =>
    obtain ⟨a, b⟩ := p
    rw [List.any_cons, Bool.and_eq_true, Bool.or_eq_true, or_and_right, ← Bool.and_eq_true (l.any _), decide_eq_true_eq,
      decide_eq_true_eq, punch]
    split
    next hk =>
      have hparts : (((if a < k then [(a, k)] else []) ++ if k + 1 < b then [(k + 1, b)] else []).any
          fun p => decide (p.1 ≤ j ∧ j < p.2)) = true ↔ (a ≤ j ∧ j < b) ∧ j ≠ k := by
        by_cases h1 : a < k <;> by_cases h2 : k + 1 < b <;> simp [h1, h2] <;> omega
      rw [List.any_append, Bool.or_eq_true, hparts, ih]
    next hk =>
      have hother : a ≤ j ∧ j < b → j ≠ k := by rintro h rfl; exact hk h
      rw [List.any_cons, Bool.or_eq_true, decide_eq_true_eq, ih, and_iff_left_of_imp hother]

theorem State.inUndef_putByte (s : State) (k j : Nat) (b : Byte) :
    (s.putByte k b).inUndef j = (s.inUndef j && decide (j ≠ k)) := by
  have hundef : (s.putByte k b).undef = if s.inUndef k then punch k s.undef else s.undef := rfl
  rw [State.inUndef, hundef]
  cases hk : s.inUndef k with
  | true => exact any_punch k j s.undef
  | false =>
    change s.inUndef j = _
    by_cases hj : j = k
    · simp [hj, hk]
    · simp [hj]

theorem State.eccMask_putByte (s : State) (k j : Nat) (b : Byte) :
    tabGet (dflt 0) (s.putByte k b).ecc j = if j = k then 0 else tabGet (dflt 0) s.ecc j := by
  simp [State.putByte, tabGet_set]

/-- A byte is written: its contents are known and its check bits are right. -/
def State.FreshAt (s : State) (j : Nat) : Prop := s.inUndef j = false ∧ tabGet (dflt 0) s.ecc j = 0

theorem State.freshAt_putByte_same (s : State) (k : Nat) (b : Byte) : (s.putByte k b).FreshAt k :=
  ⟨by simp [State.inUndef_putByte], by rw [State.eccMask_putByte, if_pos rfl]⟩

theorem State.FreshAt.putByte {s : State} {j : Nat} (h : s.FreshAt j) (k : Nat) (b : Byte) : (s.putByte k b).FreshAt j := by
  obtain ⟨hknown, hmask⟩ := h
  exact ⟨by simp [State.inUndef_putByte, hknown], by rw [State.eccMask_putByte, hmask, ite_self]⟩

theorem State.FreshAt.putRaw {j : Nat} (bs : List Byte) : ∀ {s : State}, s.FreshAt j → ∀ k, (s.putRaw k bs).FreshAt j := by
  induction bs with
  | nil => intro s h k; exact h
  | cons b bs ih => intro s h k; exact ih (h.putByte k b) (k + 1)

/-- Every byte of a write is known and has right check bits after it. -/
theorem State.freshAt_putRaw {j : Nat} (bs : List Byte) : ∀ (s : State) (k : Nat), k ≤ j → j < k + bs.length →
    (s.putRaw k bs).FreshAt j := by
  induction bs with
  | nil => intro s k hle hlt; simp at hlt; omega
  | cons b bs ih =>
    intro s k hle hlt
    rw [List.length_cons] at hlt
    by_cases hj : j = k
    · subst hj
      exact (s.freshAt_putByte_same j b).putRaw bs (j + 1)
    · exact ih _ _ (by omega) (by omega)

theorem State.putRaw_boot (bs : List Byte) : ∀ (s : State) (k : Nat), (s.putRaw k bs).boot = s.boot := by
  induction bs with
  | nil => intro _ _; rfl
  | cons b bs ih => intro s k; simp [State.putRaw, ih]

/-- Reservations are kept in the contexts' records: clearing them changes nothing else. -/
theorem State.clearResv_eq (s : State) (p : Nat → Bool) : ∃ cc eng, s.clearResv p = { s with cc := cc, eng := eng } := by
  have hfold (l : Tab CoreSt) : ∀ t : State, ∃ eng,
      l.foldl (fun t x => if x.2.resv.any p then t.modEngine x.1 fun c => { c with resv := none } else t) t =
        { t with eng := eng } := by
    induction l with
    | nil => intro t; exact ⟨t.eng, rfl⟩
    | cons x l ih =>
      intro t
      rw [List.foldl_cons]
      split
      · obtain ⟨eng, h⟩ := ih (t.modEngine x.1 fun c => { c with resv := none })
        exact ⟨eng, h⟩
      · exact ih t
  unfold State.clearResv
  split
  · obtain ⟨eng, h⟩ := hfold s.eng { s with cc := { s.cc with resv := none } }
    exact ⟨_, eng, h⟩
  · obtain ⟨eng, h⟩ := hfold s.eng s
    exact ⟨s.cc, eng, h⟩

theorem State.putBytes_eq (s : State) (k : Nat) (bs : List Byte) :
    ∃ cc eng, s.putBytes k bs = { s.putRaw k bs with cc := cc, eng := eng } := State.clearResv_eq _ _

theorem State.freshAt_putBytes (s : State) {k j : Nat} {bs : List Byte} (hle : k ≤ j) (hlt : j < k + bs.length) :
    (s.putBytes k bs).FreshAt j := by
  obtain ⟨cc, eng, h⟩ := s.putBytes_eq k bs
  rw [h]
  exact State.freshAt_putRaw bs s k hle hlt

theorem State.putBytes_boot (s : State) (k : Nat) (bs : List Byte) : (s.putBytes k bs).boot = s.boot := by
  obtain ⟨cc, eng, h⟩ := s.putBytes_eq k bs
  rw [h]
  exact State.putRaw_boot bs s k

/-! ### The next write to the bank -/

/-- An injection is armed for the bank of key `k`. -/
def State.InjectsAt (s : State) (k : Nat) : Prop :=
  s.flag F.STORE_ECC_INJ_INJ = true ∧ inStore k = true ∧ bankOf k = s.get F.STORE_ECC_INJ_BANK

/-- A write that uses the injection stores its bytes, clears INJ and keeps MASK with the check bits of the lowest byte. -/
theorem State.storeBytes_of_injectsAt {s : State} {k : Nat} (h : s.InjectsAt k) (bs : List Byte) :
    s.storeBytes k bs = { (s.putBytes k bs).off F.STORE_ECC_INJ_INJ with
      ecc := tabSet (dflt 0) (s.putBytes k bs).ecc k (BitVec.ofNat 5 (s.get F.STORE_ECC_INJ_MASK)) } := by
  obtain ⟨hinj, hin, hbank⟩ := h
  have hregs := s.putBytes_regs k bs
  simp [State.storeBytes, State.inject, State.flag_congr hregs, State.get_congr hregs, hinj, hin, hbank]

/-- The injection is made once: INJ clears. -/
theorem State.storeBytes_clears_inj {s : State} {k : Nat} (h : s.InjectsAt k) (bs : List Byte) :
    (s.storeBytes k bs).flag F.STORE_ECC_INJ_INJ = false := by
  have hget : ((s.putBytes k bs).off F.STORE_ECC_INJ_INJ).get F.STORE_ECC_INJ_INJ = 0 := State.get_put_same _ _ 0 (by decide)
  rw [State.storeBytes_of_injectsAt h]
  exact bne_eq_false_iff_eq.mpr hget

/-- How a byte of the write that uses the injection reads: the mask is on the check bits of the lowest byte, and no other's. -/
theorem State.eccByte_storeBytes {s : State} {k j : Nat} (h : s.InjectsAt k) (hcells : s.boot.cells = []) {bs : List Byte}
    (hle : k ≤ j) (hlt : j < k + bs.length) :
    (s.storeBytes k bs).eccByte j = judge (bs.getD (j - k) 0)
      (checkBits (bs.getD (j - k) 0) ^^^ if j = k then BitVec.ofNat 5 (s.get F.STORE_ECC_INJ_MASK) else 0) := by
  obtain ⟨hknown, hmask⟩ := s.freshAt_putBytes hle hlt
  have hstore := State.storeBytes_of_injectsAt h bs
  have hc : (s.storeBytes k bs).boot.cells = [] := by
    rw [hstore]
    exact (congrArg _ (s.putBytes_boot k bs)).trans hcells
  have hk : (s.storeBytes k bs).inUndef j = false := by rw [hstore]; exact hknown
  have hecc : tabGet (dflt 0) (s.storeBytes k bs).ecc j =
      if j = k then BitVec.ofNat 5 (s.get F.STORE_ECC_INJ_MASK) else 0 := by rw [hstore, tabGet_set, hmask]
  rw [State.eccByte_of_known hc hk, State.rawByte_storeBytes, if_pos ⟨hle, hlt⟩, hecc]

end Sys2Proof.Machine

/-- Settles O42: the three clauses are the write that arms (R241), the one write that uses the injection, and what error control
makes of one and of two wrong check bits (R236). -/
theorem errorInjection : Obligations.ErrorInjection := by
  intro s m v k bs
  refine ⟨fun hclk hinj => eccInjectionArm_runs hclk hinj m, ?_, fun d i j =>
    ⟨judge_one_wrong_checkBit d i, judge_two_wrong_checkBits d⟩⟩
  intro hcells hinj hin hbank hne
  have harmed : s.InjectsAt k := ⟨hinj, hin, hbank⟩
  have hpos : 0 < bs.length := List.length_pos_of_ne_nil hne
  refine ⟨State.storeBytes_clears_inj harmed bs, ?_, ?_⟩
  · intro d hd
    have hfirst : bs.getD (k - k) 0 = d := by simp [List.getD, ← List.head?_eq_getElem?, hd]
    rw [State.eccByte_storeBytes harmed hcells (Nat.le_refl k) (by omega), hfirst, if_pos rfl]
  · intro j hlt hend
    rw [State.eccByte_storeBytes harmed hcells (by omega) hend, if_neg (by omega), judge_checkBits_xor_of_even (by decide)]
    rfl
end

section
/-! SUPPORT. The GPIO outputs and inputs of a port, and the event lines that see its pins (R345, R348, R350): what a write to the
PIN block does, what a read of PIN_Pk_IN answers, what the event lines' look at their pins leaves alone, and what each line makes of
its own pin. -/

open Sys2Proof Sys2Proof.Machine

namespace Sys2Proof.Machine

/-! ### Masks held as numbers -/

theorem testBit_sub_two_pow_self {m i : Nat} (h : m.testBit i = true) : (m - 2 ^ i).testBit i = false := by
  have hodd : m / 2 ^ i % 2 = 1 := by simpa [Nat.testBit_eq_decide_div_mod_eq] using h
  have hdiv : (m - 2 ^ i) / 2 ^ i = m / 2 ^ i - 1 := by simpa using Nat.sub_mul_div m (2 ^ i) 1
  simp only [Nat.testBit_eq_decide_div_mod_eq, hdiv, decide_eq_false_iff_not]
  omega

/-- Setting or clearing a bit of a mask leaves every other. -/
theorem testBit_natSetBit (m i j : Nat) (b : Bool) : (natSetBit m i b).testBit j = if j = i then b else m.testBit j := by
  cases b with
  | true => by_cases hj : j = i <;> simp [testBit_natSetBit_true, hj]
  | false =>
    unfold natSetBit
    cases h : m.testBit i with
    | false =>
      by_cases hj : j = i
      · simp [hj, h]
      · simp [hj]
    | true =>
      have hclear := testBit_sub_two_pow_self h
      by_cases hj : j = i
      · simp [hj, hclear]
      · have hadd := testBit_add_two_pow j hclear
        rw [Nat.sub_add_cancel (Nat.ge_two_pow_of_testBit h)] at hadd
        simp [hj, hadd]

theorem testBit_maskOf (n : Nat) (p : Nat → Bool) (j : Nat) : (maskOf n p).testBit j = (decide (j < n) && p j) := by
  induction n generalizing j with
  | zero => simp [maskOf]
  | succ n ih =>
    have hlast : maskOf (n + 1) p = if p n then maskOf n p + 2 ^ n else maskOf n p := by
      simp [maskOf, List.range_succ]
    have hfree : (maskOf n p).testBit n = false := by simp [ih]
    rcases Nat.lt_trichotomy j n with hj | rfl | hj
    · cases hp : p n <;> simp [hlast, hp, testBit_add_two_pow _ hfree, ih, hj, Nat.lt_succ_of_lt hj, hj.ne]
    · cases hp : p j <;> simp [hlast, hp, testBit_add_two_pow _ hfree, hfree]
    · have hout : ¬ j < n + 1 := by omega
      cases hp : p n <;> simp [hlast, hp, testBit_add_two_pow _ hfree, ih, hout, hj.ne', Nat.not_lt.mpr hj.le]

/-! ### Writes to the PIN block -/

theorem regReach_pin {off : Nat} (hlt : off < 0x10000) (hal : off % 4 = 0) (m : Master) :
    regReach m (0x40150000 + off) = true := by
  have hblock : (0x40150000 + off) / 0x10000 = 0x4015 := by omega
  have hal' : (0x40150000 + off) % 4 = 0 := by omega
  have hlo : 0x40000000 ≤ 0x40150000 + off := by omega
  have hhi : 0x40150000 + off < 0x40180000 := by omega
  simp [regReach, inBlock, inDbg, hblock, hal', hlo, hhi]

/-- Every master reaches the PIN block; a write there ends in the event lines' look at their pins. -/
theorem State.writeReg_pin {s : State} (hclk : s.pclkOn = true) (m : Master) {off : Nat} (hlt : off < 0x10000)
    (hal : off % 4 = 0) (v : Word) :
    s.writeReg m (0x40150000 + off) v = ({ s with resp := .none }.pinReg off v).pinSync := by
  have hblock : (0x40150000 + off) / 0x10000 = 0x4015 := by omega
  have hoff : (0x40150000 + off) % 0x10000 = off := by omega
  simp only [State.writeReg, hclk, regReach_pin hlt hal, Bool.not_true, Bool.false_eq_true, if_false, if_true,
    State.regWrite, hblock, hoff, State.pinWrite]

section
variable (s : State) {k : Nat} (hk : k < 4) (v : Word)
include hk

theorem State.pinReg_set : s.pinReg (0x8 + 0x20 * k) v = s.pinOut k (· ||| v) := by
  have hport : (0x8 + 0x20 * k) / 0x20 = k := by omega
  rw [State.pinReg, if_pos (by omega), hport]

theorem State.pinReg_clr : s.pinReg (0xC + 0x20 * k) v = s.pinOut k (· &&& ~~~v) := by
  have hport : (0xC + 0x20 * k) / 0x20 = k := by omega
  rw [State.pinReg, if_neg (by omega), if_pos (by omega), hport]

theorem State.pinReg_tgl : s.pinReg (0x10 + 0x20 * k) v = s.pinOut k (· ^^^ v) := by
  have hport : (0x10 + 0x20 * k) / 0x20 = k := by omega
  rw [State.pinReg, if_neg (by omega), if_neg (by omega), if_pos (by omega), hport]

theorem State.pinReg_out : s.pinReg (0x4 + 0x20 * k) v = s.maskWrite (R.PIN_P_OUT k) v := by
  have haddr : 0x40150000 + (0x4 + 0x20 * k) = R.PIN_P_OUT k := by rw [R.PIN_P_OUT]; omega
  rw [State.pinReg, if_neg (by omega), if_neg (by omega), if_neg (by omega), if_neg (by omega), if_neg (by omega), haddr]

end

/-- SET, CLR and TGL change PIN_Pk_OUT and nothing else. -/
theorem State.onlyRegsResp_pinOut (s : State) (x : Resp) (k : Nat) (f : Word → Word) :
    OnlyRegsResp (fun a => a = R.PIN_P_OUT k) s ({ s with resp := x }.pinOut k f) :=
  ⟨rfl, fun _ ha => State.rd_wr_ne _ _ ha⟩

theorem State.bitOf_pinOut (s : State) (k : Nat) (f : Word → Word) {i : Nat} (hi : i < 24) :
    bitOf ((s.pinOut k f).rd (R.PIN_P_OUT k)) i = bitOf (f (s.rd (R.PIN_P_OUT k))) i := by
  have hmask : (0xFFFFFF : Word).getLsbD i = true := by revert i; decide
  rw [State.pinOut, State.rd_wr_same, bitOf, BitVec.getLsbD_and, hmask, Bool.and_true, bitOf]

/-- The row of the four PIN_Pk_OUT: 24 RW bits. -/
def pinOutRow : RegRow := ⟨0x40150004, [(4, 0x20)], 0xFFFFFF, 0, 0, 0⟩

theorem regRow_pinOut {k : Nat} (hk : k < 4) : regRow (R.PIN_P_OUT k) = some pinOutRow := by
  revert k; decide +kernel

theorem State.bitOf_maskWrite_pinOut (s : State) {k : Nat} (hk : k < 4) (v : Word) {i : Nat} (hi : i < 24) :
    bitOf ((s.maskWrite (R.PIN_P_OUT k) v).rd (R.PIN_P_OUT k)) i = bitOf v i := by
  have hfield : (s.maskWrite (R.PIN_P_OUT k) v).get (F.PIN_P_OUT_BITS k) = bitsOf v 0 24 :=
    s.get_maskWrite_rw (f := F.PIN_P_OUT_BITS k) (regRow_pinOut hk) rfl
      (by decide : bitsOf (w32 0xFFFFFF) 0 24 = 2 ^ 24 - 1) v
  have hbit := congrArg (Nat.testBit · i) hfield
  simpa [State.get, F.PIN_P_OUT_BITS, testBit_bitsOf, hi, bitOf] using hbit

section
variable {c : Instr} {s : State} {m : Master} {a off : Nat} {v : Word} (hclk : s.pclkOn = true)
  (hexec : exec c s = .next (s.writeReg m a v)) (haddr : a = 0x40150000 + off) (hlt : off < 0x10000) (hal : off % 4 = 0)
include hclk hexec haddr hlt hal

/-- A command that writes one register of the PIN block has the effect of that write, up to what the event lines see of it. -/
theorem runsUpToEvents_of_writeReg_pin {P : State → Prop} (hP : P ({ s with resp := .none }.pinReg off v)) :
    RunsUpToEvents c s P :=
  runsUpToEvents_of_pinSync (by rw [hexec, haddr, State.writeReg_pin hclk m hlt hal]) hP

/-- Where the register written combines each PIN_Pk_OUT bit with the bit written to it, that is the whole effect. -/
theorem runsUpToEvents_of_pinOut {k : Nat} {f : Word → Word} {g : Bool → Bool → Bool}
    (hreg : { s with resp := .none }.pinReg off v = { s with resp := .none }.pinOut k f)
    (hbit : ∀ w i, i < 24 → bitOf (f w) i = g (bitOf w i) (bitOf v i)) :
    RunsUpToEvents c s fun t => OnlyRegsResp (fun a => a = R.PIN_P_OUT k) s t ∧ ∀ i, i < 24 →
      bitOf (t.rd (R.PIN_P_OUT k)) i = g (bitOf (s.rd (R.PIN_P_OUT k)) i) (bitOf v i) := by
  refine runsUpToEvents_of_writeReg_pin hclk hexec haddr hlt hal ?_
  rw [hreg]
  exact ⟨s.onlyRegsResp_pinOut .none k f, fun i hi => (State.bitOf_pinOut _ k f hi).trans (hbit _ i hi)⟩

end

section
variable {s : State} (hclk : s.pclkOn = true) {k : BitVec 2} (m : Master) (v : Word)
include hclk

theorem pinSet_runs : RunsUpToEvents (.pinSet m k v) s fun t => OnlyRegsResp (fun a => a = R.PIN_P_OUT k.toNat) s t ∧
    ∀ i, i < 24 → bitOf (t.rd (R.PIN_P_OUT k.toNat)) i = (bitOf (s.rd (R.PIN_P_OUT k.toNat)) i || bitOf v i) :=
  runsUpToEvents_of_pinOut hclk rfl (off := 0x8 + 0x20 * k.toNat) (by rw [R.PIN_P_SET, ← Nat.add_assoc]) (by omega) (by omega)
    (State.pinReg_set _ k.isLt v) fun _ _ _ => BitVec.getLsbD_or

theorem pinClr_runs : RunsUpToEvents (.pinClr m k v) s fun t => OnlyRegsResp (fun a => a = R.PIN_P_OUT k.toNat) s t ∧
    ∀ i, i < 24 → bitOf (t.rd (R.PIN_P_OUT k.toNat)) i = (bitOf (s.rd (R.PIN_P_OUT k.toNat)) i && !bitOf v i) := by
  refine runsUpToEvents_of_pinOut hclk rfl (off := 0xC + 0x20 * k.toNat) (g := fun b w => b && !w)
    (by rw [R.PIN_P_CLR, ← Nat.add_assoc]) (by omega) (by omega) (State.pinReg_clr _ k.isLt v) fun w i hi => ?_
  simp [bitOf, show i < 32 by omega]

theorem pinTgl_runs : RunsUpToEvents (.pinTgl m k v) s fun t => OnlyRegsResp (fun a => a = R.PIN_P_OUT k.toNat) s t ∧
    ∀ i, i < 24 → bitOf (t.rd (R.PIN_P_OUT k.toNat)) i = (bitOf (s.rd (R.PIN_P_OUT k.toNat)) i != bitOf v i) :=
  runsUpToEvents_of_pinOut hclk rfl (off := 0x10 + 0x20 * k.toNat) (by rw [R.PIN_P_TGL, ← Nat.add_assoc]) (by omega) (by omega)
    (State.pinReg_tgl _ k.isLt v) fun _ _ _ => BitVec.getLsbD_xor

/-- A write to PIN_Pk_OUT replaces all 24 bits. -/
theorem pinOutWrite_runs : RunsUpToEvents (.registerWrite m (BitVec.ofNat 32 (R.PIN_P_OUT k.toNat)) v) s fun t =>
    OnlyRegsResp (fun a => a = R.PIN_P_OUT k.toNat) s t ∧ ∀ i, i < 24 → bitOf (t.rd (R.PIN_P_OUT k.toNat)) i = bitOf v i := by
  have haddr : (BitVec.ofNat 32 (R.PIN_P_OUT k.toNat)).toNat = 0x40150000 + (0x4 + 0x20 * k.toNat) := by
    rw [BitVec.toNat_ofNat, R.PIN_P_OUT]; omega
  refine runsUpToEvents_of_writeReg_pin hclk rfl haddr (by omega) (by omega) ?_
  rw [State.pinReg_out _ k.isLt]
  exact ⟨s.onlyRegsResp_maskWrite_resp _ v .none, fun i hi => State.bitOf_maskWrite_pinOut _ k.isLt v hi⟩

end

/-! ### Reads of PIN_Pk_IN -/

theorem State.readReg_resp {s : State} {m : Master} {a : Nat} (hclk : s.pclkOn = true) (hreach : regReach m a = true) :
    (s.readReg m a).resp = .data (s.regValue a) := by
  simp [State.readReg, hclk, hreach, State.regRead, State.answer]

/-- What a read clears, and the events of its clock, leave its answer. -/
theorem execRcRead_resp (m : Master) (a coinc : Word) (s : State) :
    ∃ t, execRcRead m a coinc s = .next t ∧ t.resp = (s.readReg m a.toNat).resp := by
  refine ⟨_, rfl, ?_⟩
  dsimp only
  split
  · split <;> rfl
  · rfl

theorem State.regValue_pinIn (s : State) {k : Nat} (hk : k < 4) : s.regValue (R.PIN_P_IN k) = s.pinIn k := by
  have hblock : R.PIN_P_IN k / 0x10000 = 0x4015 := by rw [R.PIN_P_IN]; omega
  have hoff : R.PIN_P_IN k % 0x10000 = 0x20 * k := by rw [R.PIN_P_IN]; omega
  have hport : 0x20 * k / 0x20 = k := by omega
  have hin : 0x20 * k < 0x80 ∧ 0x40150000 + 0x20 * k = R.PIN_P_IN k := ⟨by omega, rfl⟩
  simp only [State.regValue, hblock, hoff, State.pinValue, hport, if_pos hin]

/-- A read of PIN_Pk_IN answers the pins' levels. -/
theorem pinInRead_runs {s : State} (hclk : s.pclkOn = true) (m : Master) (k : BitVec 2) (coinc : Word) :
    Runs (.rcRead m (BitVec.ofNat 32 (R.PIN_P_IN k.toNat)) coinc) s fun t => t.resp = .data (s.pinIn k.toNat) := by
  have haddr : (BitVec.ofNat 32 (R.PIN_P_IN k.toNat)).toNat = R.PIN_P_IN k.toNat := by
    rw [BitVec.toNat_ofNat, R.PIN_P_IN]; omega
  have hreach : regReach m (R.PIN_P_IN k.toNat) = true := regReach_pin (off := 0x20 * k.toNat) (by omega) (by omega) m
  obtain ⟨t, hexec, hresp⟩ := execRcRead_resp m (BitVec.ofNat 32 (R.PIN_P_IN k.toNat)) coinc s
  rw [haddr, State.readReg_resp hclk hreach, State.regValue_pinIn s k.isLt] at hresp
  exact ⟨t, hexec, hresp⟩

theorem State.bitOf_pinIn (s : State) (k : Nat) {i : Nat} (hi : i < 24) : bitOf (s.pinIn k) i = s.inLevel (24 * k + i) := by
  simp only [State.pinIn, bitOf, w32, BitVec.getLsbD_ofNat, testBit_maskOf, hi, show i < 32 by omega, decide_true,
    Bool.true_and]

theorem State.inLevel_of_ana {s : State} {p : Nat} (hana : s.flag (F.PIN_CFG_ANA p) = true) : s.inLevel p = false := by
  simp [State.inLevel, State.pinSees, hana]

/-! ### The pad of a GPIO output -/

/-- With no function on it, a pin whose OE bit is set has its OUT bit as its one driver (R345). -/
theorem State.drivers_of_gpio {s : State} {p : Nat} (hoe : bitOf (s.rd (R.PIN_P_OE (p / 24))) (p % 24) = true)
    (hfn : ∀ f, f < 60 → s.fnOn f p = false) : s.drivers p = [bitOf (s.rd (R.PIN_P_OUT (p / 24))) (p % 24)] := by
  have hnone : (List.range 60).filter (fun f => s.fnOn f p) = [] := by
    simpa [List.filter_eq_nil_iff] using hfn
  simp [State.drivers, hnone, hoe]

theorem State.driveOf_of_driver {s : State} {p : Nat} {b : Bool} (hup : s.bankUp (pinBank p) = true)
    (hana : s.flag (F.PIN_CFG_ANA p) = false) (hod : s.flag (F.PIN_CFG_OD p) = false) (hdrv : s.drivers p = [b]) :
    s.driveOf p = some b := by
  simp [State.driveOf, hup, hana, hod, hdrv]

theorem State.padLevel_of_drive {s : State} {p : Nat} {b : Bool} (hir : s.tap.ir ≠ 0) (hlatch : s.pins.latch = none)
    (hdrive : s.driveOf p = some b) : s.padLevel p = b := by
  simp only [State.padLevel, State.cellsDrive, State.stage, hir, hlatch, hdrive, decide_false, Bool.false_and,
    Bool.false_eq_true, if_false]

theorem State.inLevel_of_input_on {s : State} {p : Nat} (hlatch : s.pins.latch = none)
    (hup : s.bankUp (pinBank p) = true) (hana : s.flag (F.PIN_CFG_ANA p) = false) : s.inLevel p = s.padLevel p := by
  simp [State.inLevel, State.pinSees, hlatch, hup, hana]

/-- The pad of a GPIO output shows its OUT bit (R345, R348). -/
theorem State.padLevel_of_gpio {s : State} {k i : Nat} (hi : i < 24) (hlatch : s.pins.latch = none) (hir : s.tap.ir ≠ 0)
    (hup : s.bankUp (pinBank (24 * k + i)) = true) (hana : s.flag (F.PIN_CFG_ANA (24 * k + i)) = false)
    (hod : s.flag (F.PIN_CFG_OD (24 * k + i)) = false) (hoe : bitOf (s.rd (R.PIN_P_OE k)) i = true)
    (hfn : ∀ f, f < 60 → s.fnOn f (24 * k + i) = false) :
    s.padLevel (24 * k + i) = bitOf (s.rd (R.PIN_P_OUT k)) i := by
  have hport : (24 * k + i) / 24 = k := by omega
  have hbit : (24 * k + i) % 24 = i := by omega
  have hdrv := State.drivers_of_gpio (s := s) (p := 24 * k + i) (by rwa [hport, hbit]) hfn
  rw [hport, hbit] at hdrv
  exact State.padLevel_of_drive hir hlatch (State.driveOf_of_driver hup hana hod hdrv)

/-! ### What the event lines leave of the pins -/

section
variable {s t : State} (h : UpToEvents s t)
include h

theorem UpToEvents.rd {a : Nat} (ha : a ≠ R.PIN_EVT_STATUS) : t.rd a = s.rd a := h.2.1 a ha
theorem UpToEvents.get {f : Fld} (hf : f.addr ≠ R.PIN_EVT_STATUS) : t.get f = s.get f := by rw [State.get, h.rd hf, State.get]
theorem UpToEvents.flag {f : Fld} (hf : f.addr ≠ R.PIN_EVT_STATUS) : t.flag f = s.flag f := by
  rw [State.flag, h.get hf, State.flag]

theorem UpToEvents.freeCtr : t.freeCtr = s.freeCtr := congrArg (·.freeCtr) h.1
theorem UpToEvents.tap : t.tap = s.tap := congrArg (·.tap) h.1
theorem UpToEvents.latch : t.pins.latch = s.pins.latch := congrArg (·.pins.latch) h.1
theorem UpToEvents.ext : t.pins.ext = s.pins.ext := congrArg (·.pins.ext) h.1
theorem UpToEvents.resetLow : t.pins.resetLow = s.pins.resetLow := congrArg (·.pins.resetLow) h.1
theorem UpToEvents.uartSt (n : Nat) : t.uartSt n = s.uartSt n := congrArg (·.uartSt n) h.1
theorem UpToEvents.spiSt (n : Nat) : t.spiSt n = s.spiSt n := congrArg (·.spiSt n) h.1
theorem UpToEvents.cc : t.cc = s.cc := congrArg (·.cc) h.1

theorem UpToEvents.bankUp (k : Nat) : t.bankUp k = s.bankUp k := by
  simp only [State.bankUp, State.bankCode, h.rd (show R.PIN_BANK_STATUS ≠ R.PIN_EVT_STATUS by decide)]

theorem UpToEvents.ana (p : Nat) : t.flag (F.PIN_CFG_ANA p) = s.flag (F.PIN_CFG_ANA p) :=
  h.flag (by simp only [F.PIN_CFG_ANA, R.PIN_CFG, R.PIN_EVT_STATUS]; omega)

theorem UpToEvents.serMoves (done : Bool) : t.serMoves done = s.serMoves done := by
  simp only [State.serMoves, State.serFrozen, h.cc, h.flag (show F.DBG_FREEZE_SER.addr ≠ R.PIN_EVT_STATUS by decide)]

theorem UpToEvents.fnMoves (f : Nat) : t.fnMoves f = s.fnMoves f := by
  simp (disch := decide) only [State.fnMoves, h.uartSt, h.spiSt, h.serMoves, h.flag, h.get]

/-- The event lines' look changes no function's level. -/
theorem UpToEvents.fnLevel (f : Nat) : t.fnLevel f = s.fnLevel f := by
  have htim : t.flag (F.TIM_CCFG_OUT (f / 4) (f % 4)) = s.flag (F.TIM_CCFG_OUT (f / 4) (f % 4)) :=
    h.flag (by simp only [F.TIM_CCFG_OUT, R.TIM_CCFG, R.PIN_EVT_STATUS]; omega)
  simp (disch := decide) only [State.fnLevel, State.uartFull, h.fnMoves, h.freeCtr, htim, h.uartSt, h.spiSt, h.flag]

theorem UpToEvents.fnOn (f p : Nat) : t.fnOn f p = s.fnOn f p := by
  have haddr : R.PIN_SEL f ≠ R.PIN_EVT_STATUS := by simp only [R.PIN_SEL, R.PIN_EVT_STATUS]; omega
  simp only [State.fnOn, h.flag (f := F.PIN_SEL_EN f) haddr, h.get (f := F.PIN_SEL_PIN f) haddr]

theorem UpToEvents.drivers (p : Nat) : t.drivers p = s.drivers p := by
  have hoe : R.PIN_P_OE (p / 24) ≠ R.PIN_EVT_STATUS := by simp only [R.PIN_P_OE, R.PIN_EVT_STATUS]; omega
  have hout : R.PIN_P_OUT (p / 24) ≠ R.PIN_EVT_STATUS := by simp only [R.PIN_P_OUT, R.PIN_EVT_STATUS]; omega
  have hlevel : t.fnLevel = s.fnLevel := funext h.fnLevel
  simp only [State.drivers, h.fnOn, hlevel, h.rd hoe, h.rd hout]

theorem UpToEvents.driveOf (p : Nat) : t.driveOf p = s.driveOf p := by
  have hod : t.flag (F.PIN_CFG_OD p) = s.flag (F.PIN_CFG_OD p) :=
    h.flag (by simp only [F.PIN_CFG_OD, R.PIN_CFG, R.PIN_EVT_STATUS]; omega)
  simp only [State.driveOf, h.bankUp, h.ana, h.drivers, hod]

theorem UpToEvents.looseLevel (p : Nat) : t.looseLevel p = s.looseLevel p := by
  have hpull : t.get (F.PIN_CFG_PULL p) = s.get (F.PIN_CFG_PULL p) :=
    h.get (by simp only [F.PIN_CFG_PULL, R.PIN_CFG, R.PIN_EVT_STATUS]; omega)
  simp only [State.looseLevel, h.ext, h.ana, h.freeCtr, hpull]

theorem UpToEvents.pinSees (p : Nat) : t.pinSees p = s.pinSees p := by
  simp only [State.pinSees, h.latch, h.bankUp, h.ana]

theorem UpToEvents.stage (p : Nat) : t.stage p = s.stage p := by
  simp only [State.stage, h.latch, h.bankUp, h.driveOf]

theorem UpToEvents.cellsDrive : t.cellsDrive = s.cellsDrive := by
  rw [State.cellsDrive, h.tap, h.resetLow, State.cellsDrive]

/-- The event lines' look moves no pin. -/
theorem UpToEvents.inLevel (p : Nat) : t.inLevel p = s.inLevel p := by
  simp only [State.inLevel, State.padLevel, h.pinSees, h.cellsDrive, h.tap, h.stage, h.looseLevel]

theorem UpToEvents.evt (n : Nat) : t.rd (R.PIN_EVT n) = s.rd (R.PIN_EVT n) :=
  h.rd (by simp only [R.PIN_EVT, R.PIN_EVT_STATUS]; omega)

theorem UpToEvents.linePin (n : Nat) : t.linePin n = s.linePin n := by
  simp only [State.linePin, State.get, F.PIN_EVT_SEL, h.evt]

theorem UpToEvents.lineOn (n : Nat) : t.lineOn n = s.lineOn n := by
  simp only [State.lineOn, State.flag, State.get, F.PIN_EVT_EN, h.evt, h.pinSees, h.linePin]

end

/-! ### One event line -/

/-- Line n sees the edge that EDGE selects, or with EDGE = 3 the high level (R350). -/
def State.lineHit (s : State) (n : Nat) : Bool :=
  let l := s.inLevel (s.linePin n)
  let known := natBit s.pins.evtInit n
  let was := natBit s.pins.evtSeen n
  match s.get (F.PIN_EVT_EDGE n) with
  | 0 => known && l && !was
  | 1 => known && !l && was
  | 2 => known && l != was
  | _ => l

/-- With its edge detector started, a hit is the selected change from the level last seen. -/
theorem State.lineHit_iff {s : State} {n : Nat} (hinit : natBit s.pins.evtInit n = true) :
    s.lineHit n = true ↔ match s.get (F.PIN_EVT_EDGE n) with
      | 0 => s.inLevel (s.linePin n) = true ∧ natBit s.pins.evtSeen n = false
      | 1 => s.inLevel (s.linePin n) = false ∧ natBit s.pins.evtSeen n = true
      | 2 => s.inLevel (s.linePin n) ≠ natBit s.pins.evtSeen n
      | _ => s.inLevel (s.linePin n) = true := by
  unfold State.lineHit
  split <;> simp [*]

theorem State.lineSync_of_off {s : State} {n : Nat} (h : s.lineOn n = false) :
    s.lineSync n = { s with pins := { s.pins with evtInit := natSetBit s.pins.evtInit n false } } := by
  simp [State.lineSync, h]

theorem State.lineSync_of_on {s : State} {n : Nat} (h : s.lineOn n = true) :
    s.lineSync n = State.iff
      { s with pins := { s.pins with evtSeen := natSetBit s.pins.evtSeen n (s.inLevel (s.linePin n)),
                                     evtInit := natSetBit s.pins.evtInit n true } }
      (s.lineHit n) (·.onBit F.PIN_EVT_STATUS_BITS n) := by
  rw [State.lineSync, h]
  rfl

@[simp] theorem State.iff_onBit_pins (s : State) (b : Bool) (f : Fld) (n : Nat) : (s.iff b (·.onBit f n)).pins = s.pins := by
  cases b <;> rfl

theorem State.natBit_status_iff_onBit (s : State) (b : Bool) (j : Nat) {n : Nat} (hn : n < 8) :
    natBit ((s.iff b (·.onBit F.PIN_EVT_STATUS_BITS j)).get F.PIN_EVT_STATUS_BITS) n =
      (natBit (s.get F.PIN_EVT_STATUS_BITS) n || (b && decide (n = j))) := by
  cases b with
  | false => simp
  | true =>
    have hget (v : Nat) : (s.put F.PIN_EVT_STATUS_BITS v).get F.PIN_EVT_STATUS_BITS = v % 2 ^ 8 :=
      State.get_put_same s _ v (by decide)
    rw [State.iff_true, State.onBit, hget, natBit, Nat.testBit_mod_two_pow, testBit_natSetBit_true, Bool.true_and,
      Bool.or_comm, natBit]
    simp [hn]

/-- `t` is `s` up to what the event lines other than line n have seen. -/
structure State.SameLine (n : Nat) (s t : State) : Prop where
  events : UpToEvents s t
  seen : natBit t.pins.evtSeen n = natBit s.pins.evtSeen n
  init : natBit t.pins.evtInit n = natBit s.pins.evtInit n
  status : natBit (t.get F.PIN_EVT_STATUS_BITS) n = natBit (s.get F.PIN_EVT_STATUS_BITS) n

theorem State.SameLine.refl (n : Nat) (s : State) : State.SameLine n s s := ⟨.refl s, rfl, rfl, rfl⟩

theorem State.SameLine.trans {n : Nat} {r s t : State} (a : State.SameLine n r s) (b : State.SameLine n s t) :
    State.SameLine n r t :=
  ⟨a.events.trans b.events, b.seen.trans a.seen, b.init.trans a.init, b.status.trans a.status⟩

theorem State.SameLine.lineHit {n : Nat} {s t : State} (h : State.SameLine n s t) : t.lineHit n = s.lineHit n := by
  simp only [State.lineHit, h.events.inLevel, h.events.linePin, h.seen, h.init, State.get, F.PIN_EVT_EDGE, h.events.evt]

/-- One line's look keeps what every other has seen. -/
theorem State.sameLine_lineSync (s : State) {n j : Nat} (hn : n < 8) (hne : n ≠ j) : State.SameLine n s (s.lineSync j) := by
  have hevents := s.lineSync_upToEvents j
  have hbit (m : Nat) (b : Bool) : natBit (natSetBit m j b) n = natBit m n := by simp [natBit, testBit_natSetBit, hne]
  cases hon : s.lineOn j with
  | false =>
    rw [State.lineSync_of_off hon] at hevents ⊢
    exact ⟨hevents, rfl, hbit _ _, rfl⟩
  | true =>
    rw [State.lineSync_of_on hon] at hevents ⊢
    refine ⟨hevents, ?_, ?_, ?_⟩
    · rw [State.iff_onBit_pins, hbit]
    · rw [State.iff_onBit_pins, hbit]
    · rw [State.natBit_status_iff_onBit _ _ _ hn, decide_eq_false hne, Bool.and_false, Bool.or_false]
      rfl

theorem State.sameLine_foldl_lineSync {n : Nat} (hn : n < 8) (l : List Nat) :
    ∀ s : State, n ∉ l → State.SameLine n s (l.foldl (fun t j => t.lineSync j) s) := by
  induction l with
  | nil => exact fun s _ => .refl n s
  | cons j l ih =>
    intro s hmem
    obtain ⟨hj, hl⟩ := not_or.mp (mt List.mem_cons.mpr hmem)
    exact (s.sameLine_lineSync hn hj).trans (ih _ hl)

/-- The look of all lines is, for line n, its own look, with that of other lines before it and after it. -/
theorem State.pinSync_around (s : State) {n : Nat} (hn : n < 8) :
    ∃ t, State.SameLine n s t ∧ State.SameLine n (t.lineSync n) s.pinSync := by
  obtain ⟨before, after, hsplit⟩ := List.append_of_mem (List.mem_range.mpr hn)
  have hnodup : (before ++ n :: after).Nodup := hsplit ▸ List.nodup_range
  have hmem : n ∉ before ++ after := (List.nodup_middle.mp hnodup).notMem
  obtain ⟨hbefore, hafter⟩ := not_or.mp (mt List.mem_append.mpr hmem)
  refine ⟨_, State.sameLine_foldl_lineSync hn before s hbefore, ?_⟩
  have hfold : s.pinSync = after.foldl (fun t j => t.lineSync j)
      ((before.foldl (fun t j => t.lineSync j) s).lineSync n) := by
    rw [State.pinSync, State.forEach, hsplit, List.foldl_append, List.foldl_cons]
  rw [hfold]
  exact State.sameLine_foldl_lineSync hn after _ hafter

/-- A line that watches an input takes the level of its pin, and its status bit sets at a hit (R350). -/
theorem State.pinSync_of_lineOn {s : State} {n : Nat} (hn : n < 8) (hon : s.lineOn n = true) :
    natBit s.pinSync.pins.evtSeen n = s.inLevel (s.linePin n) ∧
      natBit (s.pinSync.get F.PIN_EVT_STATUS_BITS) n = (natBit (s.get F.PIN_EVT_STATUS_BITS) n || s.lineHit n) := by
  obtain ⟨t, hst, htu⟩ := s.pinSync_around hn
  have hsync := State.lineSync_of_on ((hst.events.lineOn n).trans hon)
  constructor
  · rw [htu.seen, hsync, State.iff_onBit_pins, ← hst.events.linePin, ← hst.events.inLevel]
    simp [natBit, testBit_natSetBit]
  · rw [htu.status, hsync, State.natBit_status_iff_onBit _ _ _ hn, hst.lineHit, ← hst.status]
    simp only [decide_true, Bool.and_true]
    rfl

end Sys2Proof.Machine

/-- Settles O53: the three bit writes and the write of PIN_Pk_OUT are one write of its register, the read answers the pins' levels,
the one driver of a GPIO output is its OUT bit, and an event line's own look at its pin is untouched by the other lines'. -/
theorem pinOutputs : Obligations.PinOutputs := by
  intro s m k v hclk
  refine ⟨pinSet_runs hclk m v, pinClr_runs hclk m v, pinTgl_runs hclk m v, pinOutWrite_runs hclk m v, ?_, ?_, ?_⟩
  · intro _
    obtain ⟨t, hexec, hresp⟩ := pinInRead_runs hclk m k 0
    exact ⟨t, hexec, s.pinIn k.toNat, hresp, fun i hi =>
      ⟨s.bitOf_pinIn _ hi, fun hana => (s.bitOf_pinIn _ hi).trans (State.inLevel_of_ana hana)⟩⟩
  · intro i hi hlatch hir p hup hana hod hoe hfn
    have hpad := State.padLevel_of_gpio hi hlatch hir hup hana hod hoe hfn
    exact ⟨hpad, (State.inLevel_of_input_on hlatch hup hana).trans hpad⟩
  · rintro p n hn hon rfl hinit
    obtain ⟨hseen, hstatus⟩ := State.pinSync_of_lineOn hn hon
    refine ⟨s.pinSync_upToEvents, hseen, ?_⟩
    rw [hstatus, Bool.or_eq_true]
    exact or_congr_right (State.lineHit_iff hinit)
end
